-- ==== Sys2Proof/Config.lean ====
section
/-! DEFINITION. The parameters of 00_scope.md: those DOC0 gives values for (R8), those it leaves open (R9), those the spec
adds (R10), and the values `any` that the spec leaves free (R13). Nothing here is changed by an operation. -/

namespace Sys2Proof.Config

/-! ## The parameters DOC0 gives values for (R8) -/

/-- The configuration record of R8. DOC0's values are the defaults, as exact fractions; the literals are unaudited
(log 6). -/
structure Given where
  /-- `TRANS_PER_REV`, Hall transitions per revolution. -/
  transPerRev : Nat := 12
  /-- `KP`, proportional gain (R141). -/
  kp : Rat := 4 / 125
  /-- `KI`, integral gain (R141). -/
  ki : Rat := 3 / 40
  /-- `KD`, derivative gain (R141). -/
  kd : Rat := 1 / 20000
  /-- `MIN_FLOOR`, duty substituted for a negative PID output (R137). -/
  minFloor : Int := 5
  /-- `RPM_MIN_VALID`: a measured RPM below this gets the kick duty (R134). -/
  rpmMinValid : Rat := 100
  /-- `RAMP_WINDOW`, normal ramp window (R151). -/
  rampWindow : Int := 500
  /-- `ESTOP_WINDOW`, emergency ramp window (R151). -/
  estopWindow : Int := 1000
  /-- `RAMP_TICKRATE`, ticks the window is spread over (R151). -/
  rampTickrate : Int := 100
  /-- `ALPHA`, coefficient of the exponential filter (R171). -/
  alpha : Rat := 1 / 2
  /-- `THIRD_PHASE`, power multiplier for the unmeasured phase (R172). -/
  thirdPhase : Rat := 13 / 10
  /-- `COMM_TIMEOUT_MS`, commutation wait timeout; timing only, no rule uses it (R8, R262). -/
  commTimeoutMs : Nat := 500
deriving DecidableEq, Repr, Inhabited

/-- `STEP_NORMAL`, normal step per tick, RPM (R8, R151). -/
def Given.stepNormal (g : Given) : Int := g.rampWindow / g.rampTickrate

/-- `STEP_ESTOP`, emergency step per tick, RPM (R8, R151). -/
def Given.stepEstop (g : Given) : Int := g.estopWindow / g.rampTickrate

/-- What other values than the defaults must keep, DEDUCED from the rules that use them (log 6): a division has a
divisor, both steps are "positive integers" whose quotients are "exact" and the emergency step is no smaller (R151),
the substituted duty is a duty (R26, R39). -/
abbrev Given.ok (g : Given) (period : Int) : Prop :=
  0 < g.transPerRev ∧ (0 ≤ g.minFloor ∧ g.minFloor ≤ period) ∧ 0 < g.rampTickrate ∧ 0 < g.rampWindow ∧
    g.rampWindow ≤ g.estopWindow ∧ g.rampTickrate ∣ g.rampWindow ∧ g.rampTickrate ∣ g.estopWindow

/-! ## The open parameters (R9, R10) -/

/-- The three arguments of `updatePhases(a, b, c)` (R9 `PHASE_VEC`, R108). PRESUMED rational (log 17). -/
structure Triple where
  a : Rat
  b : Rat
  c : Rat
deriving DecidableEq, Repr, Inhabited

/-- One assignment of the open parameters (R9), of the two widths the spec adds, with their defaults (R10), and of the
parameters DOC0 gives, with its values as defaults (R8). -/
structure Params where
  /-- `PERIOD`, the PWM period. -/
  period : Int
  /-- `KICK_DUTY`, the fixed low start-up duty. -/
  kickDuty : Int
  /-- `TICKS_PER_SECOND` of the RPM formula. -/
  ticksPerSecond : Nat
  /-- `VREF`, ADC reference voltage. -/
  vref : Rat
  /-- `ADCMAX`, full-scale ADC code. -/
  adcMax : Nat
  /-- `GAIN` of the current-sense amplifier. -/
  gain : Rat
  /-- `RSENSE`, sense resistance. -/
  rsense : Rat
  /-- `VBUS`, bus voltage. -/
  vbus : Rat
  /-- `RB_CAP`, capacity of the sample ring buffer. -/
  rbCap : Nat
  /-- `EVQ_CAP`, capacity of the event queue. -/
  evqCap : Nat
  /-- `CLIMIT_INIT`, the current limit at reset, mA. -/
  climitInit : Rat
  /-- `PHASE_VEC(X)`. -/
  phaseX : Triple
  /-- `PHASE_VEC(Y)`. -/
  phaseY : Triple
  /-- `PHASE_VEC(Z)`. -/
  phaseZ : Triple
  /-- `CTR_BITS`, width of the transition counter. -/
  ctrBits : Nat := 32
  /-- `RPM_BITS`, width of the two's-complement setpoint registers. -/
  rpmBits : Nat := 32
  /-- The configuration record of R8. -/
  given : Given := {}
deriving DecidableEq, Repr, Inhabited

/-- The constraints of R9 on the open parameters. Two clauses are DEDUCED: `1 ≤ RPM_BITS` (log 5), since a
two's-complement register has a sign bit, and `Given.ok` (log 6). -/
abbrev Params.ok (p : Params) : Prop :=
  5 ≤ p.period ∧ 0 ≤ p.kickDuty ∧ p.kickDuty ≤ p.period ∧ 0 < p.ticksPerSecond ∧ 0 < p.vref ∧ 0 < p.adcMax ∧
    0 < p.gain ∧ 0 < p.rsense ∧ 0 ≤ p.vbus ∧ 1 ≤ p.rbCap ∧ 1 ≤ p.evqCap ∧ 0 ≤ p.climitInit ∧ 1 ≤ p.rpmBits ∧
    p.given.ok p.period

/-- `ADC_BITS`, the least width with `ADCMAX < 2 ^ ADC_BITS` (R10). -/
def Params.adcBits (p : Params) : Nat := Nat.log2 p.adcMax + 1

/-- The largest value of the transition counter, `2 ^ CTR_BITS - 1` (R22). -/
def Params.tcountMax (p : Params) : Nat := 2 ^ p.ctrBits - 1

/-- The parameters of the machine that comes out of reset: uninterpreted (log 4). -/
opaque openParams : Params

/-- Any admissible assignment; it stands in only if `openParams` itself is not one (log 4). -/
def least : Params where
  period := 5
  kickDuty := 0
  ticksPerSecond := 1
  vref := 1
  adcMax := 1
  gain := 1
  rsense := 1
  vbus := 0
  rbCap := 1
  evqCap := 1
  climitInit := 0
  phaseX := ⟨0, 0, 0⟩
  phaseY := ⟨0, 0, 0⟩
  phaseZ := ⟨0, 0, 0⟩

/-- An assignment held to the constraints of R9: admissible ones are kept. -/
def Params.orLeast (p : Params) : Params := if p.ok then p else least

/-- The parameters after reset: open (R9), with the two widths (R10) and DOC0's parameters (R8) at their defaults. -/
def chosen : Params := { openParams.orLeast with ctrBits := 32, rpmBits := 32, given := {} }

/-! ## Free values -/

/-- The `n`-th value drawn for `any` (R13, R34): uninterpreted, nothing constrains it (log 3). -/
opaque freeCell : Nat → Rat

end Sys2Proof.Config
end

