-- ==== Sys2Proof/Word.lean ====
section
/-! DEFINITION. The two bit vectors of the command interface and of the Hall latch (30_encoding.md R80, 10_state.md R21).
Every other quantity of the block is a typed value, an integer or an exact rational (00_scope.md R12). -/

namespace Sys2Proof

/-- The operation word `op[7:0]` (R80, R86: one length, 8 bits). -/
abbrev OpWord := BitVec 8

/-- A rotor-position code in the order `CBA`: bit 2 sensor C, bit 1 sensor B, bit 0 sensor A (R11, R21). -/
abbrev HallCode := BitVec 3

end Sys2Proof
end

