-- ==== Sys2Proof/Syntax.lean ====
section
/-! DEFINITION. The operations of the block (30_encoding.md R82): one constructor of `Instr` per row of
spec/opcode_table.json, its in-word fields (R83) first and its port operands, typed as R84 says, after them. -/

namespace Sys2Proof

/-- Sensor select `ss` (R83). -/
inductive Sensor where
  | A | B | C
deriving DecidableEq, Repr

/-- The sensor number, which is the bit of `hall` it writes (R83). -/
def Sensor.number : Sensor → Nat
  | .A => 0
  | .B => 1
  | .C => 2

/-- Store key `kk` (R34, R83). -/
inductive Key where
  | rpm | power | pwm | climit
deriving DecidableEq, Repr

/-- The key number (R34). -/
def Key.number : Key → Nat
  | .rpm => 0
  | .power => 1
  | .pwm => 2
  | .climit => 3

/-- Field selector `w` (R61, R83). -/
inductive Field where
  | raw | filtered
deriving DecidableEq, Repr

/-- The selector's number (R61). -/
def Field.number : Field → Nat
  | .raw => 0
  | .filtered => 1

/-- The 18 mnemonics (R82). -/
inductive Op where
  | HEDGE | CWAKE | CPOLL | RPMS | PIDS | DAPP | SPDC | RTICK | ADCP | MONC | TSET | ESET | EACK | SGET | SSET | SFLD
  | EVPOP | RESET
deriving DecidableEq, Repr

/-- An operation of the block with its operands. A grant `g` is `true` when the lock was acquired in time (R72). -/
inductive Instr where
  /-- One Hall sensor reports an edge, with its level after the edge (R101). -/
  | hedge (sensor : Sensor) (level : Bool)
  /-- The commutation task takes the permit (R103). -/
  | cwake
  /-- The commutation task polls the pins, in order `CBA` (R104). -/
  | cpoll (pins : HallCode)
  /-- Sample the edge counter over `elapsedTicks` (R122). -/
  | rpms (g : Bool) (elapsedTicks : Nat)
  /-- One evaluation of the PID controller (R130). -/
  | pids (measured : Rat) (elapsedMs : Int)
  /-- Apply the last PID result (R139). -/
  | dapp (g : Bool)
  /-- The speed task as one step (R140). -/
  | spdc (g : Bool) (elapsedTicks : Nat) (elapsedMs : Int)
  /-- One tick of the ramp timer (R152). -/
  | rtick
  /-- One pair of ADC samples (R165). -/
  | adcp (sampleA sampleB : Nat)
  /-- One cycle of the monitor (R167). -/
  | monc (g : Bool)
  /-- The operator writes the target (R150). -/
  | tset (value : Int)
  /-- Assert the emergency stop (R190). -/
  | eset
  /-- Acknowledge the emergency stop (R191). -/
  | eack
  /-- Read a store entry (R193). -/
  | sget (g : Bool) (k : Key)
  /-- Write a store entry (R194). -/
  | sset (g : Bool) (k : Key) (raw filtered : Rat)
  /-- Write one field of a store entry (R195). -/
  | sfld (g : Bool) (w : Field) (k : Key) (value : Rat)
  /-- Take the oldest notification (R197). -/
  | evpop
  /-- Power-up (R199). -/
  | reset
deriving DecidableEq, Repr

/-- The mnemonic of an operation (R82). -/
def Instr.op : Instr → Op
  | .hedge _ _ => .HEDGE
  | .cwake => .CWAKE
  | .cpoll _ => .CPOLL
  | .rpms _ _ => .RPMS
  | .pids _ _ => .PIDS
  | .dapp _ => .DAPP
  | .spdc _ _ _ => .SPDC
  | .rtick => .RTICK
  | .adcp _ _ => .ADCP
  | .monc _ => .MONC
  | .tset _ => .TSET
  | .eset => .ESET
  | .eack => .EACK
  | .sget _ _ => .SGET
  | .sset _ _ _ _ => .SSET
  | .sfld _ _ _ _ => .SFLD
  | .evpop => .EVPOP
  | .reset => .RESET

/-- What the environment presents on the command interface (R80): the operation word and the two operand ports. The
ports carry typed values; an integer is that same rational number (R12, log 14). -/
structure Command where
  op : OpWord
  a : Rat
  b : Rat
deriving DecidableEq, Repr

/-- Pseudo-instruction `PRST`, DOC0's explicit reset signal (R89, R131). -/
def Instr.prst : Instr := .pids 0 (-1)

end Sys2Proof
end

