-- ==== Sys2Proof/WellFormed.lean ====
section
/-! DEFINITION. The ranges of the port operands (30_encoding.md R84): what the port is wide enough to present. -/

namespace Sys2Proof

/-- One ADC sample is a code in `[0, ADCMAX]` (R84, R165). 0 lies in every range. -/
def sampleFits (c : Config.Params) (n : Nat) : Bool := n == 0 || decide (n ≤ c.adcMax)

/-- A setpoint fits `RPM_BITS` two's complement (R23, R84). -/
def setpointFits (c : Config.Params) (v : Int) : Bool :=
  decide (-(2 ^ (c.rpmBits - 1) : Int) ≤ v) && decide (v < (2 ^ (c.rpmBits - 1) : Int))

/-- Every operand lies in the range R84 states for it. Only ADCP and TSET have a range narrower than its type. -/
def Instr.wellFormed (c : Config.Params) : Instr → Bool
  | .hedge _ _ => true
  | .cwake => true
  | .cpoll _ => true
  | .rpms _ _ => true
  | .pids _ _ => true
  | .dapp _ => true
  | .spdc _ _ _ => true
  | .rtick => true
  | .adcp a b => sampleFits c a && sampleFits c b
  | .monc _ => true
  | .tset v => setpointFits c v
  | .eset => true
  | .eack => true
  | .sget _ _ => true
  | .sset _ _ _ _ => true
  | .sfld _ _ _ _ => true
  | .evpop => true
  | .reset => true

end Sys2Proof
end

