-- ==== Sys2Proof/Decode.lean ====
section
/-! DEFINITION. Decoding a presented command (30_encoding.md R82 to R87), total on every word and every port value, and
the encoder written from the same table. -/

namespace Sys2Proof

/-! ## The opcode map (R82) -/

/-- One row of the opcode map: a word `w` has the row's pattern when `w & mask = pat`. -/
structure Row where
  op : Op
  pat : OpWord
  mask : OpWord
deriving DecidableEq, Repr

/-- R82's table, in its order. -/
def opcodeTable : List Row :=
  [⟨.HEDGE, 0x00, 0xF8⟩, ⟨.CWAKE, 0x08, 0xFF⟩, ⟨.CPOLL, 0x10, 0xF8⟩, ⟨.RPMS, 0x20, 0xFE⟩, ⟨.PIDS, 0x22, 0xFF⟩,
   ⟨.DAPP, 0x24, 0xFE⟩, ⟨.SPDC, 0x26, 0xFE⟩, ⟨.RTICK, 0x30, 0xFF⟩, ⟨.ADCP, 0x40, 0xFF⟩, ⟨.MONC, 0x42, 0xFE⟩,
   ⟨.TSET, 0x50, 0xFF⟩, ⟨.ESET, 0x51, 0xFF⟩, ⟨.EACK, 0x52, 0xFF⟩, ⟨.SGET, 0x60, 0xF8⟩, ⟨.SSET, 0x68, 0xF8⟩,
   ⟨.SFLD, 0x70, 0xF0⟩, ⟨.EVPOP, 0x80, 0xFF⟩, ⟨.RESET, 0xFF, 0xFF⟩]

/-- The constraint column of R82: `ss != 0b11` for HEDGE, none for the others. -/
def Row.constraint (r : Row) (w : OpWord) : Bool :=
  match r.op with
  | .HEDGE => w.extractLsb' 1 2 != 0b11#2
  | .CWAKE | .CPOLL | .RPMS | .PIDS | .DAPP | .SPDC | .RTICK | .ADCP | .MONC | .TSET | .ESET | .EACK | .SGET | .SSET
  | .SFLD | .EVPOP | .RESET => true

/-- A row selects a word when the masked word is the pattern and the row's constraint holds (R82, R87). -/
def Row.selects (r : Row) (w : OpWord) : Bool := w &&& r.mask == r.pat && r.constraint w

/-! ## The in-word fields (R83) -/

/-- `ss = op[2:1]`; `0b11` is no sensor. -/
def sensorField (w : OpWord) : Option Sensor :=
  if w.extractLsb' 1 2 = 0b00#2 then some .A
  else if w.extractLsb' 1 2 = 0b01#2 then some .B
  else if w.extractLsb' 1 2 = 0b10#2 then some .C
  else none

/-- `kk = op[1:0]`. -/
def keyField (w : OpWord) : Key :=
  if w.extractLsb' 0 2 = 0b00#2 then .rpm
  else if w.extractLsb' 0 2 = 0b01#2 then .power
  else if w.extractLsb' 0 2 = 0b10#2 then .pwm
  else .climit

/-- `w = op[2]` of SFLD. -/
def whichField (w : OpWord) : Field := if w.getLsbD 2 then .filtered else .raw

/-- `ppp = op[2:0]` of CPOLL. -/
def pinsField (w : OpWord) : HallCode := w.extractLsb' 0 3

/-! ## The typed ports (R84) -/

/-- The natural number a port carries, if it carries one. -/
def portNat (q : Rat) : Option Nat := if q.den = 1 ∧ 0 ≤ q.num then some q.num.toNat else none

/-- The integer a port carries, if it carries one. -/
def portInt (q : Rat) : Option Int := if q.den = 1 then some q.num else none

/-- Why a presented command is no operation. -/
inductive Reject where
  /-- The word is one of the 193 reserved ones (R85). -/
  | reserved
  /-- A port the format reads carries a value outside the operand's type (R84), for this mnemonic. -/
  | operandType (op : Op)
deriving DecidableEq, Repr

/-- A missing typed operand is a rejection of the mnemonic. -/
def Op.typed (op : Op) : Option Instr → Except Reject Instr
  | some i => .ok i
  | none => .error (.operandType op)

/-- The fields and ports of the operation that a selected row names (R83, R84). Ports the format does not read are
ignored (R81). -/
def decodeAs (op : Op) (c : Command) : Except Reject Instr :=
  match op with
  | .HEDGE =>
    match sensorField c.op with
    | some x => .ok (.hedge x (c.op.getLsbD 0))
    | none => .error .reserved
  | .CWAKE => .ok .cwake
  | .CPOLL => .ok (.cpoll (pinsField c.op))
  | .RPMS => op.typed ((portNat c.a).map fun e => .rpms (c.op.getLsbD 0) e)
  | .PIDS => op.typed ((portInt c.b).map fun ms => .pids c.a ms)
  | .DAPP => .ok (.dapp (c.op.getLsbD 0))
  | .SPDC => op.typed ((portNat c.a).bind fun e => (portInt c.b).map fun ms => .spdc (c.op.getLsbD 0) e ms)
  | .RTICK => .ok .rtick
  | .ADCP => op.typed ((portNat c.a).bind fun a => (portNat c.b).map fun b => .adcp a b)
  | .MONC => .ok (.monc (c.op.getLsbD 0))
  | .TSET => op.typed ((portInt c.a).map fun v => .tset v)
  | .ESET => .ok .eset
  | .EACK => .ok .eack
  | .SGET => .ok (.sget (c.op.getLsbD 2) (keyField c.op))
  | .SSET => .ok (.sset (c.op.getLsbD 2) (keyField c.op) c.a c.b)
  | .SFLD => .ok (.sfld (c.op.getLsbD 3) (whichField c.op) (keyField c.op) c.a)
  | .EVPOP => .ok .evpop
  | .RESET => .ok .reset

/-- The row a word selects: the first of the table (R87). -/
def rowOf (w : OpWord) : Option Row := opcodeTable.find? fun r => r.selects w

/-- Decode a presented command (R87); a word no row selects is reserved (R85). -/
def decode (c : Command) : Except Reject Instr :=
  match rowOf c.op with
  | some r => decodeAs r.op c
  | none => .error .reserved

/-! ## The encoder (R82, R83, R84) -/

/-- A grant or level bit of an operation word at bit `n`. -/
def bitAt (n : Nat) (g : Bool) : OpWord := if g then 1#8 <<< n else 0#8

/-- The operation word: the row's pattern with the fields of R83 in their places. -/
def opWord : Instr → OpWord
  | .hedge x l => 0x00#8 ||| BitVec.ofNat 8 (2 * x.number) ||| bitAt 0 l
  | .cwake => 0x08
  | .cpoll p => 0x10#8 ||| p.setWidth 8
  | .rpms g _ => 0x20#8 ||| bitAt 0 g
  | .pids _ _ => 0x22
  | .dapp g => 0x24#8 ||| bitAt 0 g
  | .spdc g _ _ => 0x26#8 ||| bitAt 0 g
  | .rtick => 0x30
  | .adcp _ _ => 0x40
  | .monc g => 0x42#8 ||| bitAt 0 g
  | .tset _ => 0x50
  | .eset => 0x51
  | .eack => 0x52
  | .sget g k => 0x60#8 ||| bitAt 2 g ||| BitVec.ofNat 8 k.number
  | .sset g k _ _ => 0x68#8 ||| bitAt 2 g ||| BitVec.ofNat 8 k.number
  | .sfld g w k _ => 0x70#8 ||| bitAt 3 g ||| BitVec.ofNat 8 (4 * w.number + k.number)
  | .evpop => 0x80
  | .reset => 0xFF

/-- Port `a` (R84); 0 where the format does not read it (R81). -/
def portA : Instr → Rat
  | .rpms _ e => e
  | .pids m _ => m
  | .spdc _ e _ => e
  | .adcp a _ => a
  | .tset v => v
  | .sset _ _ r _ => r
  | .sfld _ _ _ v => v
  | .hedge _ _ | .cwake | .cpoll _ | .dapp _ | .rtick | .monc _ | .eset | .eack | .sget _ _ | .evpop | .reset => 0

/-- Port `b` (R84); 0 where the format does not read it (R81). -/
def portB : Instr → Rat
  | .pids _ ms => ms
  | .spdc _ _ ms => ms
  | .adcp _ b => b
  | .sset _ _ _ f => f
  | .hedge _ _ | .cwake | .cpoll _ | .rpms _ _ | .dapp _ | .rtick | .monc _ | .tset _ | .eset | .eack | .sget _ _
  | .sfld _ _ _ _ | .evpop | .reset => 0

/-- The command that presents an operation. -/
def encode (i : Instr) : Command := ⟨opWord i, portA i, portB i⟩

/-- Whether an operation's format reads port `a` (R81: formats A and AB). -/
def Op.readsA : Op → Bool
  | .RPMS | .PIDS | .SPDC | .ADCP | .TSET | .SSET | .SFLD => true
  | .HEDGE | .CWAKE | .CPOLL | .DAPP | .RTICK | .MONC | .ESET | .EACK | .SGET | .EVPOP | .RESET => false

/-- Whether an operation's format reads port `b` (R81: format AB). -/
def Op.readsB : Op → Bool
  | .PIDS | .SPDC | .ADCP | .SSET => true
  | .HEDGE | .CWAKE | .CPOLL | .RPMS | .DAPP | .RTICK | .MONC | .TSET | .ESET | .EACK | .SGET | .SFLD | .EVPOP
  | .RESET => false

/-! ## The host's view of the decoder -/

/-- The operation that the decoder reads from the table's word `w` of `nbits` bits, with both operand ports 0. -/
def decodeTableWord (nbits w : Nat) : Option Instr :=
  if nbits = 8 ∧ w < 256 then (decode ⟨BitVec.ofNat 8 w, 0, 0⟩).toOption else none

end Sys2Proof
end

