-- ==== Sys2Proof/Machine/State.lean ====
section
/-! DEFINITION. All the state of the block (10_state.md R20 to R37), the interface registers the model keeps beside it,
the reasons a step can stop, and the state after reset (70_reset_and_hazards.md R240). -/

namespace Sys2Proof.Machine

/-- The contents of `drv_phase` (R33): a driven phase, or the driver stopped without brake. -/
inductive Phase where
  | X | Y | Z | COAST
deriving DecidableEq, Repr

/-- The 2-bit code of a phase (R33). -/
def Phase.code : Phase → BitVec 2
  | .X => 0
  | .Y => 1
  | .Z => 2
  | .COAST => 3

/-- A pair of the shared value store (R34). -/
structure Entry where
  raw : Rat
  filtered : Rat
deriving DecidableEq, Repr

/-- The shared value store `S[0]` to `S[3]` (R34). -/
structure Store where
  rpm : Entry
  power : Entry
  pwm : Entry
  climit : Entry
deriving DecidableEq, Repr

/-- One pair of raw ADC samples (R62). -/
structure Sample where
  a : Nat
  b : Nat
deriving DecidableEq, Repr

/-- The exceptions of R211. An exception is reported on the result port and stops nothing. -/
inductive Exn where
  /-- A store access did not get its lock (R212); the information is the key. -/
  | lockTimeout (k : Key)
  /-- The PID controller was given an invalid input (R213). -/
  | pidInvalidInput
  /-- The total current, in mA, exceeded the limit (R214). -/
  | overcurrent (imA : Rat)
  /-- No Hall edge within the timeout: never reported, CPOLL is the recovery (R215). -/
  | sensorSilence
  /-- Start-up failed: cannot occur once the block runs (R216). -/
  | resourceCreationFailure
  /-- RPMS or SPDC with zero elapsed ticks (R217). -/
  | rpmZeroElapsed
  /-- A reserved operation word (R218); the information is the word. -/
  | illegalOp (w : OpWord)
deriving DecidableEq, Repr

/-- The exception codes (R211). -/
def Exn.code : Exn → Nat
  | .lockTimeout _ => 1
  | .pidInvalidInput => 2
  | .overcurrent _ => 3
  | .sensorSilence => 4
  | .resourceCreationFailure => 5
  | .rpmZeroElapsed => 6
  | .illegalOp _ => 7

/-- What the PID controller returns (R130): a duty, or the error sentinel, which is no number (R133). -/
inductive PidResult where
  | duty (d : Int)
  | err
deriving DecidableEq, Repr

/-- The results of R84, in the order of its table. -/
inductive Result where
  /-- The operation returns nothing (R14). -/
  | nothing
  /-- `HELD`: CWAKE or CPOLL was not enabled (R103, R104; W3, W4). -/
  | held
  /-- `rpm q` of RPMS. -/
  | rpm (q : Rat)
  /-- `SKIP`: zero elapsed ticks. -/
  | skip
  /-- `duty d` or `ERR` of PIDS. -/
  | pid (r : PidResult)
  /-- `rpm q` together with `duty d` or `ERR`, of SPDC. -/
  | speed (q : Rat) (r : PidResult)
  /-- `{raw, filtered}` of SGET. -/
  | entry (e : Entry)
  /-- `OK` of SSET and SFLD. -/
  | ok
  /-- `TIMEOUT` of SGET, SSET and SFLD. -/
  | timeout
  /-- The key EVPOP took. -/
  | key (k : Key)
  /-- `NONE` of EVPOP. -/
  | noEvent
  /-- `EMPTY`: MONC found no samples (R169; W8). -/
  | empty
  /-- The word was reserved: the answer is the exception `ILLEGAL_OP` (R85). -/
  | illegal
deriving DecidableEq, Repr

/-- What is handed back on the result port `res` (R80): the result, and beside it the exceptions in the order raised
(R211, R231). -/
structure Response where
  result : Result
  raised : List Exn
deriving DecidableEq, Repr

/-- The state of the block, under the spec's names, and the model's own fields `cfg`, `res`, `env`, `draws`. -/
structure State where
  /-- The configuration parameters (R9, R10); no operation changes them (log 4). -/
  cfg : Config.Params
  /-- `x[0]`, the latched Hall code (R21). -/
  hall : HallCode
  /-- `x[1]`, edges since the last RPM sample (R22). -/
  tcount : Nat
  /-- `x[2]`, the operator's setpoint (R23). -/
  target : Int
  /-- `x[3]`, the ramped setpoint (R23). -/
  soft : Int
  /-- `x[4]`, the PID integral (R24). -/
  integ : Rat
  /-- `x[5]`, the PID previous error (R24). -/
  perr : Rat
  /-- `x[6]`, the filter memory of channel A, in ADC counts (R25). -/
  filtA : Rat
  /-- `x[7]`, the filter memory of channel B, in ADC counts (R25). -/
  filtB : Rat
  /-- `x[8]`, the duty of the last PIDS (R26). -/
  pidOut : Int
  /-- Flag `motor_on` (R29). -/
  motorOn : Bool
  /-- Flag `estop` (R31). -/
  estop : Bool
  /-- Flag `settling` (R175). -/
  settling : Bool
  /-- Flag `was_disabled` (R30). -/
  wasDisabled : Bool
  /-- Flag `hall_pending`, the single permit (R32). -/
  hallPending : Bool
  /-- Flag `pid_err` (R133). -/
  pidErr : Bool
  /-- Driver port `drv_en` (R33). -/
  drvEn : Bool
  /-- Driver port `drv_phase` (R33). -/
  drvPhase : Phase
  /-- Driver port `drv_duty` (R33). -/
  drvDuty : Int
  /-- The shared value store `S` (R34). -/
  store : Store
  /-- The ADC sample ring buffer, oldest first (R62). -/
  ring : List Sample
  /-- The event queue, oldest first (R65). -/
  evq : List Key
  /-- The result port: what the last operation handed back (R80, log 2). -/
  res : Response
  /-- How many `any` values have been drawn (log 3). -/
  draws : Nat
  /-- What the environment will present, next first (R27, R80, log 1). -/
  env : List Command
deriving DecidableEq, Repr

/-- Why the machine stops with a fault. The block itself never stops (R210, R264). -/
inductive Fault where
  /-- DOC0's one fatal class (R216): start-up failed and there is no run. Raised by nobody: the model starts after a
  start-up that succeeded. Safe (log 21). -/
  | resourceCreationFailure
deriving DecidableEq, Repr

/-- Why the model gives no meaning. -/
inductive Refusal where
  /-- An instruction that has no meaning yet; the argument is its mnemonic. Raised by `exec` alone. Safe. -/
  | notModelled (mnemonic : String)
  /-- A port carries a value outside the operand's type or range, which "cannot be presented" (R84). Raised by the
  boundary of the command interface, before the operation. Safe (log 13). -/
  | operandOutsideType (op : Op)
deriving DecidableEq, Repr

/-- The table of R240 for given parameters. The model's own fields: an empty result port (log 2), nothing drawn (log 3),
nothing presented (log 1). -/
def State.initial (c : Config.Params) : State where
  cfg := c
  hall := 0b000
  tcount := 0
  target := 0
  soft := 0
  integ := 0
  perr := 0
  filtA := 0
  filtB := 0
  pidOut := 0
  motorOn := false
  estop := false
  settling := true
  wasDisabled := true
  hallPending := false
  pidErr := false
  drvEn := false
  drvPhase := .COAST
  drvDuty := 0
  store := ⟨⟨0, 0⟩, ⟨0, 0⟩, ⟨0, 0⟩, ⟨c.climitInit, c.climitInit⟩⟩
  ring := []
  evq := []
  res := ⟨.nothing, []⟩
  draws := 0
  env := []

/-- The machine right after reset (R240), with the open parameters left open (log 4). -/
def State.reset : State := State.initial Config.chosen

end Sys2Proof.Machine
end

