-- ==== Sys2Proof/Machine/Flags.lean ====
section
/-! DEFINITION. The six flags as the status word of 10_state.md R28, and the conditions that decide a flag. -/

namespace Sys2Proof.Machine

/-- `STATUS[7:0]` with the positions of R28; bits 7:6 are reserved and read 0 (W14). -/
def State.status (s : State) : BitVec 8 :=
  BitVec.ofBool false ++ BitVec.ofBool false ++ BitVec.ofBool s.pidErr ++ BitVec.ofBool s.hallPending ++
    BitVec.ofBool s.wasDisabled ++ BitVec.ofBool s.settling ++ BitVec.ofBool s.estop ++ BitVec.ofBool s.motorOn

/-- The comparator that sets `estop`: strict, "exceeds" (R174). -/
def exceedsLimit (imA limit : Rat) : Bool := decide (limit < imA)

/-- The settling phase ignores a reading below the limit (R175). -/
def ignoredWhileSettling (settling : Bool) (imA limit : Rat) : Bool := settling && decide (imA < limit)

/-- "Within one step", the bound included (R153). -/
def withinStep (soft target step : Int) : Bool := decide (|soft - target| ≤ step)

/-- Step 1 of RTICK stops the tick: the motor is off and the target is not positive (R152). -/
def tickStops (motorOn : Bool) (target : Int) : Bool := !motorOn && decide (target ≤ 0)

end Sys2Proof.Machine
end

