-- ==== Sys2Proof/Machine/Operands.lean ====
section
/-! DEFINITION. The operand and value computations the operations share: the store's cell addresses (20_memory.md R61),
the numbered view of the registers (10_state.md R20), the RPM formula (R121), saturation (R137) and the monitor's
arithmetic (R166 to R173). All of it is exact (R12). -/

namespace Sys2Proof.Machine

/-! ## Registers by number (R13, R20) -/

/-- `x[i]` of R20, as a number. -/
def State.x (s : State) (i : Fin 9) : Rat :=
  match i with
  | 0 => s.hall.toNat
  | 1 => s.tcount
  | 2 => s.target
  | 3 => s.soft
  | 4 => s.integ
  | 5 => s.perr
  | 6 => s.filtA
  | 7 => s.filtB
  | 8 => s.pidOut

/-! ## Store cells (R61) -/

/-- The cell address `2*k + w`. -/
def cellAddr (k : Key) (w : Field) : Nat := 2 * k.number + w.number

/-- The cell of `S[k].w`. -/
def cellOf (k : Key) (w : Field) : Fin 8 := Fin.ofNat 8 (cellAddr k w)

/-- The key of a cell address. -/
def addrKey (addr : Fin 8) : Key :=
  match addr with
  | 0 | 1 => .rpm
  | 2 | 3 => .power
  | 4 | 5 => .pwm
  | 6 | 7 => .climit

/-- The field of a cell address. -/
def addrField (addr : Fin 8) : Field :=
  match addr with
  | 0 | 2 | 4 | 6 => .raw
  | 1 | 3 | 5 | 7 => .filtered

/-- One field of an entry. -/
def Entry.get (e : Entry) : Field → Rat
  | .raw => e.raw
  | .filtered => e.filtered

/-- An entry with one field replaced. -/
def Entry.set (e : Entry) (v : Rat) : Field → Entry
  | .raw => { e with raw := v }
  | .filtered => { e with filtered := v }

/-- `S[k]`. -/
def Store.get (st : Store) : Key → Entry
  | .rpm => st.rpm
  | .power => st.power
  | .pwm => st.pwm
  | .climit => st.climit

/-- The store with `S[k]` replaced. -/
def Store.set (st : Store) (e : Entry) : Key → Store
  | .rpm => { st with rpm := e }
  | .power => { st with power := e }
  | .pwm => { st with pwm := e }
  | .climit => { st with climit := e }

/-! ## The Hall code (R21) -/

/-- `hall[ss] <- l`: one bit of the code, the other two untouched. -/
def setHallBit (h : HallCode) (x : Sensor) (l : Bool) : HallCode :=
  if l then h ||| (1#3 <<< x.number) else h &&& ~~~(1#3 <<< x.number)

/-- The saturating increment of the transition counter (R22, R101). -/
def countEdge (c : Config.Params) (n : Nat) : Nat := if n < c.tcountMax then n + 1 else n

/-! ## The RPM formula (R121) -/

/-- `rpm_of(n, e)`, exact; the callers exclude `e = 0` (R253). -/
def rpmOf (c : Config.Params) (n e : Nat) : Rat :=
  (n / c.given.transPerRev : Rat) * 60 * (c.ticksPerSecond / e)

/-! ## Saturation (R137) -/

/-- The clamp of the PID output: below 0 to `MIN_FLOOR`, then above `PERIOD` to `PERIOD`, then `floor`. -/
def saturate (c : Config.Params) (out : Rat) : Int :=
  let out := if out < 0 then (c.given.minFloor : Rat) else out
  let out := if (c.period : Rat) < out then (c.period : Rat) else out
  out.floor

/-! ## The current monitor (R166 to R173) -/

/-- `amps(c)`: the magnitude of the phase current for a value in ADC counts (R166). -/
def amps (c : Config.Params) (counts : Rat) : Rat :=
  |(c.vref / 2 - counts / c.adcMax * c.vref) / (c.gain * c.rsense)|

/-- The exact average of one channel over the drained pairs (R168). -/
def average (xs : List Nat) : Rat := (xs.sum : Rat) / (xs.length : Rat)

/-- `avgA` of the drained pairs. -/
def avgA (r : List Sample) : Rat := average (r.map Sample.a)

/-- `avgB` of the drained pairs. -/
def avgB (r : List Sample) : Rat := average (r.map Sample.b)

/-- The first-order filter (R171). -/
def filterStep (c : Config.Params) (avg prev : Rat) : Rat := c.given.alpha * avg + (1 - c.given.alpha) * prev

/-- Total power for a pair of values in counts (R172). -/
def totalPower (c : Config.Params) (countsA countsB : Rat) : Rat :=
  c.given.thirdPhase * c.vbus * (amps c countsA + amps c countsB)

/-- `ImA`: the two-phase sum of the unfiltered currents, in mA (R173). -/
def totalMilliamps (c : Config.Params) (r : List Sample) : Rat := 1000 * (amps c (avgA r) + amps c (avgB r))

end Sys2Proof.Machine
end

