-- ==== Sys2Proof/Machine/Ops.lean ====
section
/-! DEFINITION. The shared operations: the result port and raising an exception (60_exceptions.md R211), the store with
its grants (20_memory.md R61, R72), the sample ring and the event queue (R63 to R67), the trip and its acknowledgment
(R221, R222), power-up (R199), and taking the next presented command (R80). -/

namespace Sys2Proof.Machine

/-! ## The result port -/

/-- An operation starts with nothing on the result port (R14). -/
def State.openRes (s : State) : State := { s with res := ⟨.nothing, []⟩ }

/-- `result v` (R14). -/
def State.answer (s : State) (r : Result) : State := { s with res := { s.res with result := r } }

/-- `raise E(info)` (R211): the result port carries the exception after those already raised (R231). No state changes,
nothing stops, control goes nowhere. -/
def State.raise (s : State) (e : Exn) : State := { s with res := { s.res with raised := s.res.raised ++ [e] } }

/-- A reserved word: no state change, the answer is `ILLEGAL_OP` with the word (R85, R218). -/
def State.illegalOp (s : State) (w : OpWord) : State := (s.openRes.raise (.illegalOp w)).answer .illegal

/-! ## Trip entry and return (R221, R222) -/

/-- E-Stop entry: `estop <- 1`, nothing is saved. -/
def State.trip (s : State) : State := { s with estop := true }

/-- The return: `estop <- 0`, nothing is restored. -/
def State.acknowledge (s : State) : State := { s with estop := false }

/-! ## The store -/

/-- `MemRead(addr, 1)` (R13, R61). -/
def State.memRead (s : State) (addr : Fin 8) : Rat := (s.store.get (addrKey addr)).get (addrField addr)

/-- `MemWrite(addr, 1, v)` (R13, R61): the entry's other field keeps its value. -/
def State.memWrite (s : State) (addr : Fin 8) (v : Rat) : State :=
  { s with store := s.store.set ((s.store.get (addrKey addr)).set v (addrField addr)) (addrKey addr) }

/-- Both fields of `S[k]`. -/
def State.writeEntry (s : State) (k : Key) (e : Entry) : State := { s with store := s.store.set e k }

/-- `S[k].raw <- v ; S[k].filtered <- any`: the second is a fresh free value (R34, log 3). -/
def State.writeAny (s : State) (k : Key) (v : Rat) : State :=
  { s with store := s.store.set ⟨v, Config.freeCell s.draws⟩ k, draws := s.draws + 1 }

/-- A publish of `raw` under a grant (R72): without it, `LOCK_TIMEOUT(k)` and the entry keeps its value (R212). -/
def State.publishAny (s : State) (g : Bool) (k : Key) (v : Rat) : State :=
  if g then s.writeAny k v else s.raise (.lockTimeout k)

/-! ## The two sequences -/

/-- `RingPush` (R63): full drops the oldest; the newest is always kept. -/
def ringPush (cap : Nat) (r : List Sample) (x : Sample) : List Sample :=
  (if r.length = cap then r.drop 1 else r) ++ [x]

/-- `EvPush` (R66): full drops the new key. -/
def evPush (cap : Nat) (q : List Key) (k : Key) : List Key := if q.length < cap then q ++ [k] else q

/-- `EvPop` (R67): the oldest key, or none. -/
def evPop (q : List Key) : Option Key × List Key :=
  match q with
  | [] => (none, [])
  | k :: rest => (some k, rest)

/-! ## Power-up -/

/-- RESET: every item of R240. The parameters are not changed (R199); the environment's schedule is not the block's and
the free values already drawn stay drawn (log 20). -/
def State.powerUp (s : State) : State := { State.initial s.cfg with env := s.env, draws := s.draws }

/-! ## The command interface -/

/-- The command presented next and the state in which it takes effect; nothing when the environment is silent (R7). -/
def State.takeCommand (s : State) : Option (Command × State) :=
  match s.env with
  | [] => none
  | c :: rest => some (c, { s with env := rest })

/-- A command put before all others. -/
def State.presentFirst (s : State) (c : Command) : State := { s with env := c :: s.env }

end Sys2Proof.Machine
end

