-- ==== Sys2Proof/Machine/Hall.lean ====
section
/-! DEFINITION. Hall edge capture, position decode and phase-drive sequencing (40_hall_commutation.md): HEDGE, CWAKE,
CPOLL. -/

namespace Sys2Proof.Machine

/-- The 3-bit position decoder `decode` of R100: total, lossy, six codes and two that are no rotor position. -/
def decodePosition (h : HallCode) : Phase :=
  if h = 0b000 ∨ h = 0b001 ∨ h = 0b101 then .X
  else if h = 0b010 ∨ h = 0b011 then .Y
  else .Z

/-- The arguments of `updatePhases` for a driven phase (R9, R33, R108); none while coasting. -/
def phaseVec (c : Config.Params) : Phase → Option Config.Triple
  | .X => some c.phaseX
  | .Y => some c.phaseY
  | .Z => some c.phaseZ
  | .COAST => none

/-- The procedure `commutate(h)` (R102). -/
def State.commutate (s : State) (h : HallCode) : State :=
  if s.motorOn then
    { (if s.wasDisabled then { s with drvEn := true, wasDisabled := false } else s) with drvPhase := decodePosition h }
  else
    { s with drvPhase := .COAST, drvEn := false, wasDisabled := true }

/-- HEDGE (R101): write the bit, count the edge, give the permit. -/
def execHedge (x : Sensor) (l : Bool) (s : State) : Host.Outcome State Fault Refusal :=
  .next { s.openRes with hall := setHallBit s.hall x l, tcount := countEdge s.cfg s.tcount, hallPending := true }

/-- CWAKE (R103): enabled with a permit, which it takes; otherwise `HELD` and no change. -/
def execCwake (s : State) : Host.Outcome State Fault Refusal :=
  .next (if s.hallPending then { s.openRes with hallPending := false }.commutate s.hall else s.openRes.answer .held)

/-- CPOLL (R104): enabled with no permit pending; otherwise `HELD` and no change (W4, log 10). -/
def execCpoll (p : HallCode) (s : State) : Host.Outcome State Fault Refusal :=
  .next (if s.hallPending then s.openRes.answer .held else s.openRes.commutate p)

end Sys2Proof.Machine
end

