-- ==== Sys2Proof/Machine/Monitor.lean ====
section
/-! DEFINITION. The current and power monitor (44_current_monitor.md): ADCP, MONC. -/

namespace Sys2Proof.Machine

/-- The filter memories after the averages of the drained pairs (R171). -/
def State.filterAll (s : State) (r : List Sample) : State :=
  { s with filtA := filterStep s.cfg (avgA r) s.filtA, filtB := filterStep s.cfg (avgB r) s.filtB }

/-- The comparator and the trip (R174): unconditional, against the limit as it stood before this cycle's clobber. -/
def State.compareAndTrip (s : State) (imA limit : Rat) : State :=
  if exceedsLimit imA limit then s.trip.raise (.overcurrent imA) else s

/-- The clobber and the settling phase (R175): a below-limit reading is ignored while settling; any other overwrites the
limit entry and ends the phase. -/
def State.clobberLimit (s : State) (imA limit : Rat) : State :=
  if ignoredWhileSettling s.settling imA limit then s else { s.writeAny .climit imA with settling := false }

/-- The publish of the power pair and its notification, under the grant (R176). -/
def State.publishPower (s : State) (g : Bool) (raw filtered : Rat) : State :=
  if g then { s.writeEntry .power ⟨raw, filtered⟩ with evq := evPush s.cfg.evqCap s.evq .power }
  else s.raise (.lockTimeout .power)

/-- The body of MONC (R167) for the pairs drained in this cycle, at least one. -/
def State.monitorCycle (s : State) (g : Bool) (r : List Sample) : State :=
  let t := { s with ring := [] }.filterAll r
  let imA := totalMilliamps s.cfg r
  let limit := s.store.climit.raw
  ((t.compareAndTrip imA limit).clobberLimit imA limit).publishPower g
    (totalPower s.cfg (avgA r) (avgB r)) (totalPower s.cfg t.filtA t.filtB)

/-- ADCP (R165): push the pair; overflow is no error. -/
def execAdcp (a b : Nat) (s : State) : Host.Outcome State Fault Refusal :=
  .next { s.openRes with ring := ringPush s.cfg.rbCap s.ring ⟨a, b⟩ }

/-- MONC (R167): the cycle over the drained pairs; with none the cycle is skipped whole, and the
result is `EMPTY` (R169, W8, log 11). -/
def execMonc (g : Bool) (s : State) : Host.Outcome State Fault Refusal :=
  match s.ring with
  | [] => .next (s.openRes.answer .empty)
  | x :: r => .next (s.openRes.monitorCycle g (x :: r))

end Sys2Proof.Machine
end

