-- ==== Sys2Proof/Machine/Rpm.lean ====
section
/-! DEFINITION. The RPM estimator (41_rpm_estimator.md): RPMS. -/

namespace Sys2Proof.Machine

/-- The body of RPMS (R122): the skip, or the exchange on `tcount`, the formula and the publish. The first component is
`q`, or none for `SKIP`. -/
def State.sampleRpm (s : State) (g : Bool) (e : Nat) : Option Rat × State :=
  if e = 0 then (none, s.raise .rpmZeroElapsed)
  else (some (rpmOf s.cfg s.tcount e), { s with tcount := 0 }.publishAny g .rpm (rpmOf s.cfg s.tcount e))

/-- RPMS (R122). -/
def execRpms (g : Bool) (e : Nat) (s : State) : Host.Outcome State Fault Refusal :=
  match s.openRes.sampleRpm g e with
  | (none, t) => .next (t.answer .skip)
  | (some q, t) => .next (t.answer (.rpm q))

end Sys2Proof.Machine
end

