-- ==== Sys2Proof/Machine/Pid.lean ====
section
/-! DEFINITION. The PID speed controller (42_pid_controller.md): PIDS, DAPP, SPDC. -/

namespace Sys2Proof.Machine

/-- `out` of the normal case from the error, the new integral and the derivative (R135), with the configured gains
(R141). -/
def controlLaw (c : Config.Params) (err integ deriv : Rat) : Rat :=
  c.given.kp * err + c.given.ki * integ + c.given.kd * deriv

/-- Cases 1 and 2 (R131, R132): the controller's memory is cleared and the duty is 0. -/
def State.pidClear (s : State) : PidResult × State :=
  (.duty 0, { s with integ := 0, perr := 0, pidOut := 0, pidErr := false })

/-- Case 3 (R133, R213): the error flag, the sentinel, the memory unchanged. -/
def State.pidInvalid (s : State) : PidResult × State := (.err, { s with pidErr := true }.raise .pidInvalidInput)

/-- Case 4 (R134): the kick, without running the PID math. -/
def State.pidKick (s : State) : PidResult × State :=
  (.duty s.cfg.kickDuty, { s with pidOut := s.cfg.kickDuty, pidErr := false })

/-- The normal case (R135 to R137): the output uses the new integral; the previous error is updated after it. -/
def State.pidNormal (s : State) (measured : Rat) (elapsed : Int) : PidResult × State :=
  let err : Rat := s.soft - measured
  let integ : Rat := s.integ + err * elapsed
  let deriv : Rat := (err - s.perr) / elapsed
  let d := saturate s.cfg (controlLaw s.cfg err integ deriv)
  (.duty d, { s with integ := integ, perr := err, pidOut := d, pidErr := false })

/-- The body of PIDS (R130): the five cases, tried in order. -/
def State.runPid (s : State) (measured : Rat) (elapsed : Int) : PidResult × State :=
  if measured = 0 ∧ elapsed = -1 then s.pidClear
  else if s.soft = 0 then s.pidClear
  else if measured < 0 ∨ elapsed ≤ 0 then s.pidInvalid
  else if measured < s.cfg.given.rpmMinValid then s.pidKick
  else s.pidNormal measured elapsed

/-- The body of DAPP (R139): apply and publish, or hold the last output. -/
def State.applyDuty (s : State) (g : Bool) : State :=
  if s.pidErr then s else { s with drvDuty := s.pidOut }.publishAny g .pwm s.pidOut

/-- PIDS (R130). -/
def execPids (measured : Rat) (elapsed : Int) (s : State) : Host.Outcome State Fault Refusal :=
  .next ((s.openRes.runPid measured elapsed).2.answer (.pid (s.openRes.runPid measured elapsed).1))

/-- DAPP (R139). -/
def execDapp (g : Bool) (s : State) : Host.Outcome State Fault Refusal := .next (s.openRes.applyDuty g)

/-- SPDC (R140): RPMS, PIDS on its result, DAPP, in one atomic step and with one grant for both publishes. -/
def execSpdc (g : Bool) (ticks : Nat) (ms : Int) (s : State) : Host.Outcome State Fault Refusal :=
  match s.openRes.sampleRpm g ticks with
  | (none, t) => .next (t.answer .skip)
  | (some q, t) => .next (((t.runPid q ms).2.applyDuty g).answer (.speed q (t.runPid q ms).1))

/-- Pseudo-instruction `SPDX` (R89): what follows its first line `RPMS t`, given that line's result. -/
def spdxTail (g : Bool) (ms : Int) : Result → List Instr
  | .rpm q => [.pids q ms, .dapp g]
  | .nothing | .held | .skip | .pid _ | .speed _ _ | .entry _ | .ok | .timeout | .key _ | .noEvent | .empty
  | .illegal => []

end Sys2Proof.Machine
end

