-- ==== Sys2Proof/Machine/Ramp.lean ====
section
/-! DEFINITION. The soft ramp and the emergency-stop timer (43_soft_ramp.md): TSET, RTICK. -/

namespace Sys2Proof.Machine

/-- The step of this tick (R151, R152 step 3): chosen anew from the `estop` it finds. -/
def State.rampStep (s : State) : Int := if s.estop then s.cfg.given.stepEstop else s.cfg.given.stepNormal

/-- The target of this tick (R152 step 3, R154): forced to 0 under E-Stop. -/
def State.rampTarget (s : State) : Int := if s.estop then 0 else s.target

/-- Steps 4 and 5 of R152 for the tick's target and step: snap, or one step toward the target. -/
def State.rampMove (s : State) (step : Int) : State :=
  if withinStep s.soft s.target step then
    { s with soft := s.target, motorOn := if s.target = 0 then false else s.motorOn }
  else if s.soft < s.target then { s with soft := s.soft + step }
  else { s with soft := s.soft - step }

/-- TSET (R150). -/
def execTset (v : Int) (s : State) : Host.Outcome State Fault Refusal := .next { s.openRes with target := v }

/-- RTICK (R152), DOC0's five steps in order. -/
def execRtick (s : State) : Host.Outcome State Fault Refusal :=
  .next
    (if tickStops s.motorOn s.target then s.openRes
     else { s.openRes with motorOn := true, target := s.rampTarget }.rampMove s.rampStep)

end Sys2Proof.Machine
end

