-- ==== Sys2Proof/Machine/Surface.lean ====
section
/-! DEFINITION. The block's outside surface (45_estop_store_events.md): ESET, EACK, SGET, SSET, SFLD, EVPOP, RESET. -/

namespace Sys2Proof.Machine

/-- ESET (R190): unconditional and idempotent. -/
def execEset (s : State) : Host.Outcome State Fault Refusal := .next s.openRes.trip

/-- EACK (R191): unconditional; restores nothing. -/
def execEack (s : State) : Host.Outcome State Fault Refusal := .next s.openRes.acknowledge

/-- SGET (R193): both fields as one pair. -/
def execSget (g : Bool) (k : Key) (s : State) : Host.Outcome State Fault Refusal :=
  .next
    (if g then s.openRes.answer (.entry (s.store.get k)) else (s.openRes.raise (.lockTimeout k)).answer .timeout)

/-- SSET (R194). -/
def execSset (g : Bool) (k : Key) (raw filtered : Rat) (s : State) : Host.Outcome State Fault Refusal :=
  .next
    (if g then (s.openRes.writeEntry k ⟨raw, filtered⟩).answer .ok
     else (s.openRes.raise (.lockTimeout k)).answer .timeout)

/-- SFLD (R195): `MemWrite(2*k + w, 1, a)`. -/
def execSfld (g : Bool) (w : Field) (k : Key) (v : Rat) (s : State) : Host.Outcome State Fault Refusal :=
  .next
    (if g then (s.openRes.memWrite (cellOf k w) v).answer .ok
     else (s.openRes.raise (.lockTimeout k)).answer .timeout)

/-- EVPOP (R197). -/
def execEvpop (s : State) : Host.Outcome State Fault Refusal :=
  .next
    ({ s.openRes with evq := (evPop s.evq).2 }.answer
      (match (evPop s.evq).1 with
       | some k => .key k
       | none => .noEvent))

/-- RESET (R199). -/
def execReset (s : State) : Host.Outcome State Fault Refusal := .next s.powerUp

end Sys2Proof.Machine
end

