-- ==== Sys2Proof/Machine/Dispatch.lean ====
section
/-! DEFINITION. One arm per operation (30_encoding.md R82). -/

namespace Sys2Proof.Machine

def exec (i : Instr) (s : State) : Host.Outcome State Fault Refusal :=
  match i with
  -- 40_hall_commutation.md
  | .hedge x l => Sys2Proof.Machine.execHedge x l s
  | .cwake => Sys2Proof.Machine.execCwake s
  | .cpoll p => Sys2Proof.Machine.execCpoll p s
  -- 41_rpm_estimator.md
  | .rpms g e => Sys2Proof.Machine.execRpms g e s
  -- 42_pid_controller.md
  | .pids m e => Sys2Proof.Machine.execPids m e s
  | .dapp g => Sys2Proof.Machine.execDapp g s
  | .spdc g t e => Sys2Proof.Machine.execSpdc g t e s
  -- 43_soft_ramp.md
  | .rtick => Sys2Proof.Machine.execRtick s
  -- 44_current_monitor.md
  | .adcp a b => Sys2Proof.Machine.execAdcp a b s
  | .monc g => Sys2Proof.Machine.execMonc g s
  -- 43_soft_ramp.md
  | .tset v => Sys2Proof.Machine.execTset v s
  -- 45_estop_store_events.md
  | .eset => Sys2Proof.Machine.execEset s
  | .eack => Sys2Proof.Machine.execEack s
  | .sget g k => Sys2Proof.Machine.execSget g k s
  | .sset g k r f => Sys2Proof.Machine.execSset g k r f s
  | .sfld g w k v => Sys2Proof.Machine.execSfld g w k v s
  | .evpop => Sys2Proof.Machine.execEvpop s
  | .reset => Sys2Proof.Machine.execReset s

end Sys2Proof.Machine
end

