-- ==== Sys2Proof/Machine/Present.lean ====
section
/-! DEFINITION. The boundary of the command interface (30_encoding.md R80, R84, R85): what a presented command does. -/

namespace Sys2Proof.Machine

/-- A presented command takes effect: a reserved word is the exception `ILLEGAL_OP` (R85); an operand outside its type
or range cannot be presented and is refused (R84, log 13); anything else is the operation it decodes to. -/
def present (c : Command) (s : State) : Host.Outcome State Fault Refusal :=
  match decode c with
  | .error .reserved => .next (s.illegalOp c.op)
  | .error (.operandType op) => .refused (.operandOutsideType op)
  | .ok i => if i.wellFormed s.cfg then exec i s else .refused (.operandOutsideType i.op)

/-- The command that presents the table's word `w` with both ports 0. -/
def tableCommand (w : Nat) : Command := ⟨BitVec.ofNat 8 w, 0, 0⟩

end Sys2Proof.Machine
end

