-- ==== Sys2Proof/Machine/Step.lean ====
section
/-! DEFINITION. One step of the block: the next presented command takes effect, atomically (20_memory.md R70); while
nothing is presented nothing changes (00_scope.md R7). -/

namespace Sys2Proof.Machine

/-- One operation, or the wait for one. -/
def step (s : State) : Host.Outcome State Fault Refusal :=
  match s.takeCommand with
  | none => .next s
  | some (c, t) => present c t

/-- `s` with the table's word presented first, ports 0 (log 1). The word is 8 bits whatever `nbits` (R86). -/
def State.withFetchWord (s : State) (_nbits w : Nat) : State := s.presentFirst (tableCommand w)

end Sys2Proof.Machine
end

