-- ==== Sys2Proof/Safety.lean ====
section
/-! DEFINITION. What counts as a safe run, in the terms the claims use: the invariants of 10_state.md R38 to R40 and
43_soft_ramp.md R160, the premises on the environment (70_reset_and_hazards.md R265), and the principals with their
operations (60_exceptions.md R225, R230). -/

namespace Sys2Proof.Machine

/-! ## Invariants of the block -/

/-- What holds in every reachable state. -/
structure State.Inv (s : State) : Prop where
  /-- The parameters meet the constraints of R9. -/
  cfgOk : s.cfg.ok
  /-- `tcount` is below `2^CTR_BITS` (R20, R22). -/
  tcountFits : s.tcount < 2 ^ s.cfg.ctrBits
  /-- `target` fits `RPM_BITS` (R20, R23). -/
  targetFits : setpointFits s.cfg s.target = true
  /-- `soft` fits `RPM_BITS` (R20, R23). -/
  softFits : setpointFits s.cfg s.soft = true
  /-- `0 <= pid_out <= PERIOD` (R39). -/
  pidOutInRange : 0 ≤ s.pidOut ∧ s.pidOut ≤ s.cfg.period
  /-- `0 <= drv_duty <= PERIOD` (R39). -/
  drvDutyInRange : 0 ≤ s.drvDuty ∧ s.drvDuty ≤ s.cfg.period
  /-- `drv_en = 1 - was_disabled` (R38). -/
  enabledUnlessDisabled : s.drvEn = !s.wasDisabled
  /-- The engine is in one of its four states (R106): it coasts exactly when it is disabled. -/
  coastsWhenDisabled : s.drvPhase = .COAST ↔ s.wasDisabled = true
  /-- A stopped motor has a zero reference (R160). -/
  stoppedHasZeroSoft : s.motorOn = false → s.soft = 0
  /-- `length(ring) <= RB_CAP` (R40). -/
  ringBounded : s.ring.length ≤ s.cfg.rbCap
  /-- `length(evq) <= EVQ_CAP` (R40). -/
  evqBounded : s.evq.length ≤ s.cfg.evqCap
  /-- Every sample is a code in `[0, ADCMAX]` (R62). -/
  samplesFit : ∀ p ∈ s.ring, p.a ≤ s.cfg.adcMax ∧ p.b ≤ s.cfg.adcMax

/-! ## Premises on the environment -/

/-- The command can be presented (R84, R265 (3)): its word is reserved, or it decodes to an operation whose operands lie
in their types and ranges. -/
def presentable (c : Config.Params) (cmd : Command) : Bool :=
  match decode cmd with
  | .ok i => i.wellFormed c
  | .error .reserved => true
  | .error (.operandType _) => false

/-- Everything the environment will present can be presented. -/
def State.envPresentable (s : State) : Bool := s.env.all (presentable s.cfg)

/-! ## Principals (R225) and agents (R230) -/

/-- The principals of R225. -/
inductive Principal where
  | hallSource (x : Sensor)
  | adcSource
  | rampTimer
  | commutationTask
  | speedTask
  | monitorTask
  | operator
  | consumers
  | powerUp
deriving DecidableEq, Repr

/-- The number of a principal's agent in R230; power-up is no agent. -/
def Principal.agent : Principal → Option Nat
  | .hallSource _ => some 1
  | .adcSource => some 2
  | .rampTimer => some 3
  | .commutationTask => some 4
  | .speedTask => some 5
  | .monitorTask => some 6
  | .operator => some 7
  | .consumers => some 8
  | .powerUp => none

/-- The operations a principal may present (R225). The block cannot check it (R224, log 18). -/
def Principal.mayPresent (p : Principal) (i : Instr) : Bool :=
  match i with
  | .hedge x _ => p = .hallSource x
  | .adcp _ _ => p = .adcSource
  | .rtick => p = .rampTimer
  | .cwake | .cpoll _ => p = .commutationTask
  | .rpms _ _ | .pids _ _ | .dapp _ | .spdc _ _ _ => p = .speedTask
  | .monc _ => p = .monitorTask
  | .tset _ | .eset | .eack | .sset _ _ _ _ | .sfld _ _ _ _ => p = .operator
  | .sget _ _ => p = .operator ∨ p = .consumers
  | .evpop => p = .consumers
  | .reset => p = .powerUp

/-- `t` differs from `s` at most in the state that R225 lets the principal write, in the result port and in the count of
free values drawn (log 2, log 3). -/
def Principal.writesOnlyItsState (p : Principal) (s t : State) : Prop :=
  match p with
  | .hallSource x =>
    t = { s with hall := t.hall, tcount := t.tcount, hallPending := t.hallPending, res := t.res } ∧
      ∀ y : Sensor, y ≠ x → t.hall.getLsbD y.number = s.hall.getLsbD y.number
  | .adcSource =>
    t = { s with ring := t.ring, res := t.res } ∧
      ∃ p : Sample, t.ring = s.ring ++ [p] ∨ t.ring = s.ring.drop 1 ++ [p]
  | .rampTimer =>
    t = { s with soft := t.soft, motorOn := t.motorOn, target := t.target, res := t.res } ∧
      (t.target = s.target ∨ t.target = 0)
  | .commutationTask =>
    t = { s with hallPending := t.hallPending, wasDisabled := t.wasDisabled, drvEn := t.drvEn, drvPhase := t.drvPhase,
                 res := t.res } ∧
      (t.hallPending = s.hallPending ∨ t.hallPending = false)
  | .speedTask =>
    t = { s with tcount := t.tcount, integ := t.integ, perr := t.perr, pidOut := t.pidOut, pidErr := t.pidErr,
                 drvDuty := t.drvDuty, store := { s.store with rpm := t.store.rpm, pwm := t.store.pwm },
                 res := t.res, draws := t.draws } ∧
      (t.tcount = s.tcount ∨ t.tcount = 0)
  | .monitorTask =>
    t = { s with ring := t.ring, filtA := t.filtA, filtB := t.filtB, estop := t.estop, settling := t.settling,
                 store := { s.store with power := t.store.power, climit := t.store.climit }, evq := t.evq,
                 res := t.res, draws := t.draws } ∧
      (t.estop = s.estop ∨ t.estop = true) ∧ (t.evq = s.evq ∨ ∃ k, t.evq = s.evq ++ [k]) ∧
      (t.ring = s.ring ∨ t.ring = [])
  | .operator => t = { s with target := t.target, estop := t.estop, store := t.store, res := t.res }
  | .consumers => t = { s with evq := t.evq, res := t.res } ∧ (t.evq = s.evq ∨ t.evq = s.evq.drop 1)
  | .powerUp => True

end Sys2Proof.Machine
end

