-- ==== Sys2Proof/Certificates/Slice0/Obligations.lean ====
section
/-! DEFINITION. The statements for the provers. "log n" is notes/assumptions/n.md. The result port `res` is the model's
own field (log 2), and so are `draws`, `cfg` and `env` (log 3, log 4, log 1). -/

namespace Sys2Proof.Claims

open Sys2Proof.Machine

/-- The operations presented one after another, nothing between them. -/
def runs : List Instr → State → Host.Outcome State Fault Refusal
  | [], s => .next s
  | i :: rest, s =>
    match exec i s with
    | .next t => runs rest t
    | .fault r => .fault r
    | .refused r => .refused r

/-- `n` steps one after another, whatever the environment presents. -/
def steps : Nat → State → Host.Outcome State Fault Refusal
  | 0, s => .next s
  | n + 1, s =>
    match step s with
    | .next t => steps n t
    | .fault r => .fault r
    | .refused r => .refused r

/-- R85's list of the 193 reserved words, as it is written there. -/
def reservedWord (w : OpWord) : Bool :=
  let n := w.toNat
  (n = 0x06 || n = 0x07 || (0x09 ≤ n && n ≤ 0x0F) || (0x18 ≤ n && n ≤ 0x1F) || n = 0x23 || (0x28 ≤ n && n ≤ 0x2F) ||
    (0x31 ≤ n && n ≤ 0x3F) || n = 0x41 || (0x44 ≤ n && n ≤ 0x4F) || (0x53 ≤ n && n ≤ 0x5F) || (0x81 ≤ n && n ≤ 0xFE))

/-- The operations that write `S[k]` (the "written by" column of R34, SPDC as RPMS and DAPP, and RESET). -/
def writesEntry (k : Key) : Instr → Bool
  | .rpms _ _ => k = .rpm
  | .dapp _ => k = .pwm
  | .spdc _ _ _ => k = .rpm ∨ k = .pwm
  | .monc _ => k = .power ∨ k = .climit
  | .sset _ k' _ _ => k = k'
  | .sfld _ _ k' _ => k = k'
  | .reset => true
  | .hedge _ _ | .cwake | .cpoll _ | .pids _ _ | .rtick | .adcp _ _ | .tset _ | .eset | .eack | .sget _ _ | .evpop => false

/-- The cause of `PID_INVALID_INPUT` (R213): `soft != 0`, not the reset signal, and `a < 0` or `b <= 0`. -/
def pidInputInvalid (s : State) (m : Rat) (e : Int) : Prop := s.soft ≠ 0 ∧ ¬(m = 0 ∧ e = -1) ∧ (m < 0 ∨ e ≤ 0)

/-- Operation `i`, presented in `s`, has cause to raise `x`: R211's "raised by" column with the causes of R212 to R218
and the information: the key of the access whose grant is missing, the total current. SPDC has the causes of its three
parts, PIDS's on the RPM that its RPMS part computes. -/
def hasCause (i : Instr) (s : State) (x : Exn) : Prop :=
  match i with
  | .rpms g a => (a = 0 ∧ x = .rpmZeroElapsed) ∨ (a ≠ 0 ∧ g = false ∧ x = .lockTimeout .rpm)
  | .pids m e => pidInputInvalid s m e ∧ x = .pidInvalidInput
  | .dapp g => s.pidErr = false ∧ g = false ∧ x = .lockTimeout .pwm
  | .spdc g a e =>
    (a = 0 ∧ x = .rpmZeroElapsed) ∨
      (a ≠ 0 ∧
        ((g = false ∧ x = .lockTimeout .rpm) ∨
          (pidInputInvalid s (rpmOf s.cfg s.tcount a) e ∧ x = .pidInvalidInput) ∨
          (¬pidInputInvalid s (rpmOf s.cfg s.tcount a) e ∧ g = false ∧ x = .lockTimeout .pwm)))
  | .monc g =>
    s.ring ≠ [] ∧
      ((s.store.climit.raw < totalMilliamps s.cfg s.ring ∧ x = .overcurrent (totalMilliamps s.cfg s.ring)) ∨
        (g = false ∧ x = .lockTimeout .power))
  | .sget g k | .sset g k _ _ | .sfld g _ k _ => g = false ∧ x = .lockTimeout k
  | .hedge _ _ | .cwake | .cpoll _ | .rtick | .adcp _ _ | .tset _ | .eset | .eack | .evpop | .reset => False

end Sys2Proof.Claims

open Sys2Proof Sys2Proof.Machine Sys2Proof.Claims

/-! ## Encoding and the boundary -/

/-- Derived from rules R82, R83, R84, R87: decoding the encoding of an operation gives it back, with every operand at
every value. -/
def Obligations.DecodeOfEncodeIsTheOperation : Prop :=
  ∀ (c : Config.Params) (i : Instr), i.wellFormed c = true → decode (encode i) = .ok i

/-- Derived from rules R81 to R84: an accepted command has one meaning: the encoding of what it decodes to has its
word, and its ports where the format reads them. -/
def Obligations.AcceptedCommandIsTheEncodingOfItsMeaning : Prop :=
  ∀ (c : Command) (i : Instr), decode c = .ok i →
    (encode i).op = c.op ∧ (i.op.readsA = true → (encode i).a = c.a) ∧ (i.op.readsB = true → (encode i).b = c.b)

/-- Derived from rules R82, R85: no two rows select the same word; the rows select 63 of the 256 words, and the others
are those R85 lists. -/
def Obligations.OpcodeMapSelectsSixtyThreeWords : Prop :=
  (∀ w : OpWord, (opcodeTable.filter fun r => r.selects w).length = if reservedWord w then 0 else 1) ∧
    ((List.range 256).filter fun n => !reservedWord (BitVec.ofNat 8 n)).length = 63

/-- Derived from rules R82, R83: words written out from the encoding column decode to the operations they stand for. -/
def Obligations.SampleWordsDecode : Prop :=
  decode ⟨0b00000011, 0, 0⟩ = .ok (.hedge .B true) ∧ decode ⟨0b00000100, 0, 0⟩ = .ok (.hedge .C false) ∧
    decode ⟨0b00010101, 0, 0⟩ = .ok (.cpoll 0b101) ∧ decode ⟨0b00100000, 100, 7⟩ = .ok (.rpms false 100) ∧
    decode ⟨0b00100111, 100, -1⟩ = .ok (.spdc true 100 (-1)) ∧ decode ⟨0b01000011, 0, 0⟩ = .ok (.monc true) ∧
    decode ⟨0b01100011, 0, 0⟩ = .ok (.sget false .climit) ∧
    decode ⟨0b01101101, 3 / 2, 1⟩ = .ok (.sset true .power (3 / 2) 1) ∧
    decode ⟨0b01110110, 0, 5⟩ = .ok (.sfld false .filtered .pwm 0) ∧ decode ⟨0b11111111, 0, 0⟩ = .ok .reset

/-- Derived from rules R80, R87; that what is presented is the first entry of the list `env`, which a step takes from
it, is log 1: a presented command that decodes to an operation with operands in range is that operation, run in the
state from which the command has been taken. -/
def Obligations.StepRunsThePresentedOperation : Prop :=
  ∀ (s : State) (c : Command) (rest : List Command) (i : Instr),
    s.env = c :: rest → decode c = .ok i → i.wellFormed s.cfg = true → step s = exec i { s with env := rest }

/-- Derived from rule R7; that nothing is presented when the list `env` is empty is log 1, and that the result port
`res` keeps its contents meanwhile is log 2: a step with nothing presented changes nothing. -/
def Obligations.StepWithNothingPresentedChangesNothing : Prop :=
  ∀ s : State, s.env = [] → step s = .next s

/-- Derived from rules R85 and R218; that the command counts as taken is log 12, and the list of what will be
presented is log 1: each of the 193 words changes no state of the block, and the result is `ILLEGAL_OP` with the word,
whatever the ports; the next step runs the next command. -/
def Obligations.ReservedWordsRaiseIllegalOp : Prop :=
  ∀ (s : State) (c : Command) (rest : List Command), s.env = c :: rest → reservedWord c.op = true →
    step s = .next { s with env := rest, res := ⟨.illegal, [.illegalOp c.op]⟩ }

/-- Derived from rule R84, and log 13 for the form of the refusal: an operand outside its stated type or range is
refused at the boundary, for each port that has a type narrower than the rationals. -/
def Obligations.OperandsOutsideTheirTypeAreRefused : Prop :=
  ∀ (s : State) (c : Command) (rest : List Command), s.env = c :: rest →
    ((c.op = 0x20 ∨ c.op = 0x21) → (∀ n : Nat, c.a ≠ n) → step s = .refused (.operandOutsideType .RPMS)) ∧
    (c.op = 0x22 → (∀ v : Int, c.b ≠ v) → step s = .refused (.operandOutsideType .PIDS)) ∧
    ((c.op = 0x26 ∨ c.op = 0x27) → ((∀ n : Nat, c.a ≠ n) ∨ ∀ v : Int, c.b ≠ v) →
      step s = .refused (.operandOutsideType .SPDC)) ∧
    (c.op = 0x40 → (¬(∃ n : Nat, c.a = n ∧ n ≤ s.cfg.adcMax) ∨ ¬∃ n : Nat, c.b = n ∧ n ≤ s.cfg.adcMax) →
      step s = .refused (.operandOutsideType .ADCP)) ∧
    (c.op = 0x50 →
      (¬∃ v : Int, c.a = v ∧ -(2 ^ (s.cfg.rpmBits - 1) : Int) ≤ v ∧ v < (2 ^ (s.cfg.rpmBits - 1) : Int)) →
      step s = .refused (.operandOutsideType .TSET))

/-! ## Parameters, registers and flags -/

/-- Derived from rule R10: `ADC_BITS` is the least integer with `ADCMAX < 2^ADC_BITS`. -/
def Obligations.AdcBitsIsTheLeastWidth : Prop :=
  ∀ c : Config.Params, 0 < c.adcMax → c.adcMax < 2 ^ c.adcBits ∧ ∀ n : Nat, c.adcMax < 2 ^ n → c.adcBits ≤ n

/-- Derived from rule R28: the status word's bits. -/
def Obligations.StatusWordHoldsTheSixFlags : Prop :=
  ∀ s : State,
    s.status.getLsbD 0 = s.motorOn ∧ s.status.getLsbD 1 = s.estop ∧ s.status.getLsbD 2 = s.settling ∧
      s.status.getLsbD 3 = s.wasDisabled ∧ s.status.getLsbD 4 = s.hallPending ∧ s.status.getLsbD 5 = s.pidErr ∧
      s.status.getLsbD 6 = false ∧ s.status.getLsbD 7 = false

/-- Derived from rules R21 to R25, R28, R33, R36: who writes each register, flag, port register and queue; SPDC counts
as its three parts (R140). No operation changes the parameters or what the environment will present (log 4, log 1). -/
def Obligations.EveryRegisterHasItsWriters : Prop :=
  ∀ (i : Instr) (s t : State), exec i s = .next t →
    (i.op ≠ .HEDGE → i.op ≠ .RESET → t.hall = s.hall) ∧
    (i.op ≠ .HEDGE → i.op ≠ .RPMS → i.op ≠ .SPDC → i.op ≠ .RESET → t.tcount = s.tcount) ∧
    (i.op ≠ .TSET → i.op ≠ .RTICK → i.op ≠ .RESET → t.target = s.target) ∧
    (i.op ≠ .RTICK → i.op ≠ .RESET → t.soft = s.soft ∧ t.motorOn = s.motorOn) ∧
    (i.op ≠ .PIDS → i.op ≠ .SPDC → i.op ≠ .RESET →
      t.integ = s.integ ∧ t.perr = s.perr ∧ t.pidOut = s.pidOut ∧ t.pidErr = s.pidErr) ∧
    (i.op ≠ .MONC → i.op ≠ .RESET → t.filtA = s.filtA ∧ t.filtB = s.filtB ∧ t.settling = s.settling) ∧
    (i.op ≠ .MONC → i.op ≠ .ESET → i.op ≠ .EACK → i.op ≠ .RESET → t.estop = s.estop) ∧
    (i.op ≠ .CWAKE → i.op ≠ .CPOLL → i.op ≠ .RESET →
      t.wasDisabled = s.wasDisabled ∧ t.drvEn = s.drvEn ∧ t.drvPhase = s.drvPhase) ∧
    (i.op ≠ .HEDGE → i.op ≠ .CWAKE → i.op ≠ .RESET → t.hallPending = s.hallPending) ∧
    (i.op ≠ .DAPP → i.op ≠ .SPDC → i.op ≠ .RESET → t.drvDuty = s.drvDuty) ∧
    (i.op ≠ .ADCP → i.op ≠ .MONC → i.op ≠ .RESET → t.ring = s.ring) ∧
    (i.op ≠ .MONC → i.op ≠ .EVPOP → i.op ≠ .RESET → t.evq = s.evq) ∧
    t.cfg = s.cfg ∧ t.env = s.env

/-- Derived from rule R34: every cell of the store is unchanged by an operation that does not write its entry. -/
def Obligations.EveryStoreCellHasItsWriters : Prop :=
  ∀ (i : Instr) (s t : State) (addr : Fin 8), exec i s = .next t → writesEntry (addrKey addr) i = false →
    t.memRead addr = s.memRead addr

/-! ## Hall capture and commutation -/

/-- R100: the position decoder's table. -/
def Obligations.PositionDecoderTable : Prop :=
  decodePosition 0b000 = .X ∧ decodePosition 0b001 = .X ∧ decodePosition 0b010 = .Y ∧ decodePosition 0b011 = .Y ∧
    decodePosition 0b100 = .Z ∧ decodePosition 0b101 = .X ∧ decodePosition 0b110 = .Z ∧ decodePosition 0b111 = .Z

/-- R101: HEDGE writes its sensor's bit and no other, counts the edge up to the counter's maximum, gives the permit,
and changes nothing else. -/
def Obligations.HedgeWritesItsBitCountsAndGivesThePermit : Prop :=
  ∀ (x : Sensor) (l : Bool) (s : State), ∃ h : HallCode,
    exec (.hedge x l) s = .next
      { s with
        hall := h
        tcount := if s.tcount < 2 ^ s.cfg.ctrBits - 1 then s.tcount + 1 else s.tcount
        hallPending := true
        res := ⟨.nothing, []⟩ } ∧
      h.getLsbD x.number = l ∧ ∀ j : Nat, j < 3 → j ≠ x.number → h.getLsbD j = s.hall.getLsbD j

/-- R102, R103: CWAKE takes the permit and commutates on `hall`, with the motor on or off; without a permit it is
`HELD`. Nothing else changes. -/
def Obligations.CwakeTakesThePermitAndCommutates : Prop :=
  ∀ s : State,
    (s.hallPending = true → s.motorOn = true →
      exec .cwake s = .next
        { s with
          hallPending := false
          drvPhase := decodePosition s.hall
          drvEn := s.wasDisabled || s.drvEn
          wasDisabled := false
          res := ⟨.nothing, []⟩ }) ∧
    (s.hallPending = true → s.motorOn = false →
      exec .cwake s = .next
        { s with
          hallPending := false, drvPhase := .COAST, drvEn := false, wasDisabled := true, res := ⟨.nothing, []⟩ }) ∧
    (s.hallPending = false → exec .cwake s = .next { s with res := ⟨.held, []⟩ })

/-- Derived from rules R102 and R104, and for the result HELD from row W4 of 93_implementation_defined.md (log 10):
CPOLL commutates on the sampled pins when no permit is pending; with a permit pending it is `HELD` and changes
nothing. `hall`, `tcount` and `hall_pending` are not touched. -/
def Obligations.CpollCommutatesOnThePins : Prop :=
  ∀ (p : HallCode) (s : State),
    (s.hallPending = false → s.motorOn = true →
      exec (.cpoll p) s = .next
        { s with
          drvPhase := decodePosition p
          drvEn := s.wasDisabled || s.drvEn
          wasDisabled := false
          res := ⟨.nothing, []⟩ }) ∧
    (s.hallPending = false → s.motorOn = false →
      exec (.cpoll p) s = .next
        { s with drvPhase := .COAST, drvEn := false, wasDisabled := true, res := ⟨.nothing, []⟩ }) ∧
    (s.hallPending = true → exec (.cpoll p) s = .next { s with res := ⟨.held, []⟩ })

/-- Derived from rule R105, which the spec marks as its own inference from R102: with `motor_on` and the code
unchanged a second commutation leaves the state exactly as the first left it. -/
def Obligations.CommutationIsIdempotent : Prop :=
  ∀ (s : State) (h : HallCode), (s.commutate h).commutate h = s.commutate h

/-- Derived from rules R76, R121, R122: no edge is counted twice and none is lost: any edges, then RPMS, and the RPM
is that of the count before them plus their number, the counter being 0 afterwards. The premise keeps the counter
below saturation (R22). -/
def Obligations.EveryEdgeIsCountedInOneSample : Prop :=
  ∀ (edges : List (Sensor × Bool)) (s : State) (g : Bool) (e : Nat),
    s.tcount + edges.length < 2 ^ s.cfg.ctrBits → e ≠ 0 →
    ∃ t : State, runs (edges.map (fun p => Instr.hedge p.1 p.2) ++ [.rpms g e]) s = .next t ∧ t.tcount = 0 ∧
      t.res.result =
        .rpm (60 * (s.tcount + edges.length) * s.cfg.ticksPerSecond / (s.cfg.given.transPerRev * e))

/-! ## RPM estimator -/

/-- R121: the RPM formula, exact and never negative. -/
def Obligations.RpmFormula : Prop :=
  ∀ (c : Config.Params) (n e : Nat), 0 < e →
    rpmOf c n e = (n : Rat) / c.given.transPerRev * 60 * ((c.ticksPerSecond : Rat) / e) ∧
      (c.given.transPerRev = 12 → rpmOf c n e = 5 * n * c.ticksPerSecond / e) ∧ 0 ≤ rpmOf c n e

/-- R122: RPMS, with and without the grant, and with zero elapsed ticks. The published `filtered` field is a free
value (log 3). -/
def Obligations.RpmsSamplesClearsAndPublishes : Prop :=
  ∀ (e : Nat) (s : State) (q : Rat),
    q = 60 * s.tcount * s.cfg.ticksPerSecond / (s.cfg.given.transPerRev * e) →
    (e ≠ 0 →
      exec (.rpms true e) s = .next
        { s with
          tcount := 0
          store := { s.store with rpm := ⟨q, Config.freeCell s.draws⟩ }
          draws := s.draws + 1
          res := ⟨.rpm q, []⟩ }) ∧
    (e ≠ 0 →
      exec (.rpms false e) s = .next
        { s with
          tcount := 0
          res := ⟨.rpm q, [.lockTimeout .rpm]⟩ }) ∧
    ∀ g : Bool, exec (.rpms g 0) s = .next { s with res := ⟨.skip, [.rpmZeroElapsed]⟩ }

/-! ## PID speed controller -/

/-- R131, R132, R133, R134: PIDS's four special cases, tried in order: the reset signal, the zero setpoint, the
invalid input, the kick. -/
def Obligations.PidsSpecialCasesInOrder : Prop :=
  ∀ (m : Rat) (e : Int) (s : State),
    ((m = 0 ∧ e = -1) ∨ s.soft = 0 →
      exec (.pids m e) s = .next
        { s with integ := 0, perr := 0, pidOut := 0, pidErr := false, res := ⟨.pid (.duty 0), []⟩ }) ∧
    (s.soft ≠ 0 → ¬(m = 0 ∧ e = -1) → m < 0 ∨ e ≤ 0 →
      exec (.pids m e) s = .next { s with pidErr := true, res := ⟨.pid .err, [.pidInvalidInput]⟩ }) ∧
    (s.soft ≠ 0 → 0 ≤ m → m < s.cfg.given.rpmMinValid → 0 < e →
      exec (.pids m e) s = .next
        { s with pidOut := s.cfg.kickDuty, pidErr := false, res := ⟨.pid (.duty s.cfg.kickDuty), []⟩ })

/-- Derived from rules R130, R135, R137, R138; the assignment of `perr` is R136, which the spec marks as its own
inference: PIDS's normal case: the new integral enters the output, the clamp is against 0 and then against `PERIOD`,
and `floor` comes last. -/
def Obligations.PidsNormalCase : Prop :=
  ∀ (m : Rat) (e : Int) (s : State) (err integ deriv out low clamped : Rat),
    s.soft ≠ 0 → 0 ≤ m → s.cfg.given.rpmMinValid ≤ m → 0 < e →
    err = s.soft - m → integ = s.integ + err * e → deriv = (err - s.perr) / e →
    out = s.cfg.given.kp * err + s.cfg.given.ki * integ + s.cfg.given.kd * deriv →
    low = (if out < 0 then (s.cfg.given.minFloor : Rat) else out) →
    clamped = (if low > s.cfg.period then (s.cfg.period : Rat) else low) →
    exec (.pids m e) s = .next
      { s with
        integ := integ, perr := err, pidOut := ⌊clamped⌋, pidErr := false, res := ⟨.pid (.duty ⌊clamped⌋), []⟩ }

/-- Derived from rule R137, and R39, which the spec marks as its own inference; the premise is R9 with the clause `1
<= RPM_BITS` of log 5 and the clause on `MIN_FLOOR` of log 6: whatever the input, PIDS hands back `ERR` or a duty in
`[0, PERIOD]`, and a duty is what `pid_out` then holds. -/
def Obligations.PidsHandsBackErrOrADuty : Prop :=
  ∀ (m : Rat) (e : Int) (s : State), s.cfg.ok →
    ∃ t : State, exec (.pids m e) s = .next t ∧
      ((t.res = ⟨.pid .err, [.pidInvalidInput]⟩ ∧ t.pidErr = true ∧ t.pidOut = s.pidOut) ∨
        (t.res = ⟨.pid (.duty t.pidOut), []⟩ ∧ t.pidErr = false ∧ 0 ≤ t.pidOut ∧ t.pidOut ≤ s.cfg.period))

/-- R139: DAPP applies the duty and publishes it under the grant, or holds the last output. The published `filtered`
field is a free value (log 3). -/
def Obligations.DappAppliesOrHolds : Prop :=
  ∀ s : State,
    (s.pidErr = false →
      exec (.dapp true) s = .next
        { s with
          drvDuty := s.pidOut
          store := { s.store with pwm := ⟨s.pidOut, Config.freeCell s.draws⟩ }
          draws := s.draws + 1
          res := ⟨.nothing, []⟩ }) ∧
    (s.pidErr = false →
      exec (.dapp false) s = .next { s with drvDuty := s.pidOut, res := ⟨.nothing, [.lockTimeout .pwm]⟩ }) ∧
    (s.pidErr = true → ∀ g : Bool, exec (.dapp g) s = .next { s with res := ⟨.nothing, []⟩ })

/-- Derived from rules R140, R89, R231, of which the spec marks R231 as its own inference; that the exceptions stand
in this order on `res` is log 15, and that the DAPP line of SPDX carries the grant of its RPMS line is log 24: SPDC is
RPMS, then PIDS on its result, then DAPP, with one grant, and its exceptions are theirs in the order raised; with zero
elapsed ticks it is the skip alone. -/
def Obligations.SpdcIsRpmsThenPidsThenDapp : Prop :=
  ∀ (g : Bool) (a : Nat) (b : Int) (s : State),
    (a ≠ 0 →
      ∃ (t₁ t₂ t₃ : State) (q : Rat) (r : PidResult),
        exec (.rpms g a) s = .next t₁ ∧ t₁.res.result = .rpm q ∧ spdxTail g b t₁.res.result = [.pids q b, .dapp g] ∧
        exec (.pids q b) t₁ = .next t₂ ∧ t₂.res.result = .pid r ∧ exec (.dapp g) t₂ = .next t₃ ∧
        exec (.spdc g a b) s = .next
          { t₃ with res := ⟨.speed q r, t₁.res.raised ++ t₂.res.raised ++ t₃.res.raised⟩ }) ∧
    (a = 0 → exec (.spdc g a b) s = .next { s with res := ⟨.skip, [.rpmZeroElapsed]⟩ })

/-! ## Soft ramp -/

/-- R150: TSET writes `target` and nothing else, under E-Stop too. -/
def Obligations.TsetWritesTheTarget : Prop :=
  ∀ (v : Int) (s : State), exec (.tset v) s = .next { s with target := v, res := ⟨.nothing, []⟩ }

/-- R151, R152, R153: RTICK's five steps; with DOC0's parameters, the defaults, the step is 5, under E-Stop 10. -/
def Obligations.RtickFiveSteps : Prop :=
  ∀ (s : State) (t step : Int), t = (if s.estop = true then 0 else s.target) →
    step = (if s.estop = true then s.cfg.given.estopWindow else s.cfg.given.rampWindow) / s.cfg.given.rampTickrate →
    (s.cfg.given = {} → step = if s.estop = true then 10 else 5) ∧
    (s.motorOn = false → s.target ≤ 0 → exec .rtick s = .next { s with res := ⟨.nothing, []⟩ }) ∧
    (s.motorOn = true ∨ 0 < s.target → |s.soft - t| ≤ step →
      exec .rtick s = .next
        { s with target := t, soft := t, motorOn := if t = 0 then false else true, res := ⟨.nothing, []⟩ }) ∧
    (s.motorOn = true ∨ 0 < s.target → step < |s.soft - t| → s.soft < t →
      exec .rtick s = .next
        { s with target := t, soft := s.soft + step, motorOn := true, res := ⟨.nothing, []⟩ }) ∧
    (s.motorOn = true ∨ 0 < s.target → step < |s.soft - t| → t < s.soft →
      exec .rtick s = .next
        { s with target := t, soft := s.soft - step, motorOn := true, res := ⟨.nothing, []⟩ })

/-- Derived from rules R42 and R157, which the spec marks as its own inference from R152; the premise that the
configured steps are admissible (R151) is log 6: a tick moves `soft` toward the target it leaves behind by at most the
step, never past it, and no tick moves it by more than the emergency step. -/
def Obligations.RtickNeverOvershoots : Prop :=
  ∀ s : State, s.cfg.ok → ∃ u : State, exec .rtick s = .next u ∧ |u.soft - s.soft| ≤ s.cfg.given.stepEstop ∧
    (s.motorOn = true ∨ 0 < s.target →
      |u.soft - u.target| =
          max 0 (|s.soft - u.target| - if s.estop = true then s.cfg.given.stepEstop else s.cfg.given.stepNormal) ∧
        min s.soft u.target ≤ u.soft ∧ u.soft ≤ max s.soft u.target) ∧
    (s.estop = false → u.target = s.target ∧ |u.soft - u.target| ≤ |s.soft - s.target|)

/-- Derived from rule R157, which the spec marks as its own inference from R152; the premise that the configured steps
are admissible (R151) is log 6: with target and E-Stop flag held fixed, `soft` is at the target after the ceiling of
distance over step many ticks, not before, and stays there. -/
def Obligations.RampReachesTheTargetAndStays : Prop :=
  ∀ (s : State) (n : Nat), s.cfg.ok → s.estop = false → s.motorOn = true ∨ 0 < s.target →
    ∃ u : State, runs (List.replicate n .rtick) s = .next u ∧ u.target = s.target ∧
      |u.soft - s.target| = max 0 (|s.soft - s.target| - s.cfg.given.stepNormal * n)

/-- Derived from rule R221, whose count the spec marks as its own inference from R157; the premise that the configured
steps are admissible (R151) is log 6: under E-Stop a motor that was on is marked off by exactly `max(1, ceil(abs(soft)
/ STEP_ESTOP))` ticks (R221 with its default step of 10: `ceil(abs(soft) / 10)`), on before that, off with a zero
setpoint from then on. -/
def Obligations.EmergencyRampDownTakesTheStatedTicks : Prop :=
  ∀ (s : State) (n : Nat) (ticks : Int), s.cfg.ok → s.estop = true → s.motorOn = true →
    ticks = max 1 ⌈((|s.soft| : Int) : Rat) / s.cfg.given.stepEstop⌉ →
    ∃ u : State, runs (List.replicate n .rtick) s = .next u ∧ (n < ticks → u.motorOn = true) ∧
      (ticks ≤ n → u.motorOn = false ∧ u.soft = 0 ∧ u.target = 0)

/-- Derived from rule R155, which the spec marks as its own inference from R152; the premise that the configured steps
are admissible (R151) is log 6: a stopped motor does not start under E-Stop, and the operator's target is zeroed. -/
def Obligations.MotorDoesNotStartUnderEstop : Prop :=
  ∀ s : State, s.cfg.ok → s.motorOn = false → s.soft = 0 → 0 < s.target → s.estop = true →
    exec .rtick s = .next { s with target := 0, res := ⟨.nothing, []⟩ }

/-! ## Current monitor -/

/-- R166: the current conversion: the formula, never negative, 0 exactly at half scale, at both ends its maximum. The
premises are R9's constraints on its parameters. -/
def Obligations.CurrentConversion : Prop :=
  ∀ (c : Config.Params) (x : Rat), 0 < c.vref → 0 < c.adcMax → 0 < c.gain → 0 < c.rsense →
    amps c x = |(c.vref / 2 - x / c.adcMax * c.vref) / (c.gain * c.rsense)| ∧ 0 ≤ amps c x ∧
      (amps c x = 0 ↔ x = (c.adcMax : Rat) / 2) ∧ amps c 0 = c.vref / (2 * c.gain * c.rsense) ∧
      amps c c.adcMax = c.vref / (2 * c.gain * c.rsense) ∧
      (0 ≤ x → x ≤ c.adcMax → amps c x ≤ c.vref / (2 * c.gain * c.rsense))

/-- R63, R165: ADCP appends the pair; a full buffer loses its oldest pair; nothing else changes. -/
def Obligations.AdcpPushesThePair : Prop :=
  ∀ (a b : Nat) (s : State),
    exec (.adcp a b) s = .next
      { s with
        ring := (if s.ring.length = s.cfg.rbCap then s.ring.tail else s.ring) ++ [⟨a, b⟩]
        res := ⟨.nothing, []⟩ }

/-- Derived from rules R62, R63: any sequence of pushes leaves the newest `RB_CAP` of the pairs, in order. The
premises are R9 and R40. -/
def Obligations.PushesKeepTheNewestSamples : Prop :=
  ∀ (xs : List Sample) (s : State), 1 ≤ s.cfg.rbCap → s.ring.length ≤ s.cfg.rbCap →
    ∃ u : State, runs (xs.map fun p => Instr.adcp p.a p.b) s = .next u ∧
      u.ring = (s.ring ++ xs).drop (s.ring.length + xs.length - s.cfg.rbCap) ∧
      u = { s with ring := u.ring, res := u.res }

/-- Derived from rule R169, and for the result EMPTY from row W8 of 93_implementation_defined.md (log 11): MONC with
no samples changes nothing and raises nothing, whatever the grant, and hands back `EMPTY`. -/
def Obligations.MoncWithNoSamplesChangesNothing : Prop :=
  ∀ (g : Bool) (s : State), s.ring = [] → exec (.monc g) s = .next { s with res := ⟨.empty, []⟩ }

/-- Derived from rules R166 to R168, R171 to R176 and R231, of which the spec marks R231 and the order in R174 as its
own inference; that the exceptions stand in this order on `res` is log 15: MONC with samples: every register, entry
and queue it writes, the exceptions in their order, and nothing else. The clobbered `filtered` field is a free value
(log 3). -/
def Obligations.MoncCycle : Prop :=
  ∀ (g : Bool) (s : State) (a b fa fb imA limit : Rat), s.ring ≠ [] →
    a = (s.ring.map Sample.a).sum / s.ring.length → b = (s.ring.map Sample.b).sum / s.ring.length →
    fa = s.cfg.given.alpha * a + (1 - s.cfg.given.alpha) * s.filtA →
    fb = s.cfg.given.alpha * b + (1 - s.cfg.given.alpha) * s.filtB →
    imA = 1000 * (amps s.cfg a + amps s.cfg b) → limit = s.store.climit.raw →
    exec (.monc g) s = .next
      { s with
        ring := []
        filtA := fa
        filtB := fb
        estop := if imA > limit then true else s.estop
        settling := if s.settling = true ∧ imA < limit then true else false
        store :=
          { s.store with
            power :=
              if g = true then
                ⟨s.cfg.given.thirdPhase * s.cfg.vbus * (amps s.cfg a + amps s.cfg b),
                  s.cfg.given.thirdPhase * s.cfg.vbus * (amps s.cfg fa + amps s.cfg fb)⟩
              else s.store.power
            climit := if s.settling = true ∧ imA < limit then s.store.climit else ⟨imA, Config.freeCell s.draws⟩ }
        draws := if s.settling = true ∧ imA < limit then s.draws else s.draws + 1
        evq := if g = true ∧ s.evq.length < s.cfg.evqCap then s.evq ++ [.power] else s.evq
        res :=
          ⟨.nothing,
            (if imA > limit then [.overcurrent imA] else []) ++ (if g = true then [] else [.lockTimeout .power])⟩ }

/-- Derived from rules R174, R214 and R231, of which the spec marks R231 and the order in R174 as its own inference;
that the trip stands first on `res` is log 15: an overcurrent always trips: whatever the grant, the settling flag and
the E-Stop flag; the trip touches neither the driver nor the ramp. -/
def Obligations.OvercurrentAlwaysTrips : Prop :=
  ∀ (g : Bool) (s : State), s.ring ≠ [] → s.store.climit.raw < totalMilliamps s.cfg s.ring →
    ∃ t : State, exec (.monc g) s = .next t ∧ t.estop = true ∧
      t.res.raised.head? = some (.overcurrent (totalMilliamps s.cfg s.ring)) ∧ t.target = s.target ∧ t.soft = s.soft ∧
      t.motorOn = s.motorOn ∧ t.drvEn = s.drvEn ∧ t.drvPhase = s.drvPhase ∧ t.drvDuty = s.drvDuty

/-- Derived from rule R177, which the spec marks as its own inference from R174 and R175: after the settling phase the
limit is the previous cycle's current: the next cycle trips exactly when its current is higher. -/
def Obligations.LimitIsThePreviousCyclesCurrent : Prop :=
  ∀ (g g' : Bool) (s t : State) (xs : List Sample), s.ring ≠ [] → s.settling = false → exec (.monc g) s = .next t →
    xs ≠ [] →
    t.settling = false ∧ t.store.climit.raw = totalMilliamps s.cfg s.ring ∧
      ∃ u v : State, runs (xs.map fun p => Instr.adcp p.a p.b) t = .next u ∧ exec (.monc g') u = .next v ∧
        ((∃ x : Rat, Exn.overcurrent x ∈ v.res.raised) ↔
          totalMilliamps s.cfg s.ring < totalMilliamps s.cfg u.ring)

/-! ## Emergency stop, store, events, reset -/

/-- R190, R191: ESET sets and EACK clears `estop`, unconditionally, and nothing else changes. -/
def Obligations.EsetSetsAndEackClears : Prop :=
  ∀ s : State,
    exec .eset s = .next { s with estop := true, res := ⟨.nothing, []⟩ } ∧
      exec .eack s = .next { s with estop := false, res := ⟨.nothing, []⟩ }

/-- Derived from rules R31 and R41; the spec marks R41 as its own inference: `estop` goes from 1 to 0 only by EACK or
RESET; `settling` from 0 to 1 only by RESET. -/
def Obligations.EstopAndSettlingAreSticky : Prop :=
  ∀ (i : Instr) (s t : State), exec i s = .next t →
    (s.estop = true → t.estop = false → i.op = .EACK ∨ i.op = .RESET) ∧
      (s.settling = false → t.settling = true → i.op = .RESET)

/-- Derived from rule R192, which the spec marks as its own inference from R28: RTICK is the only operation that looks
at `estop`: with the flag at another value every other operation does the same to all other state and hands back the
same. -/
def Obligations.OnlyRtickLooksAtEstop : Prop :=
  ∀ (i : Instr) (s : State) (b : Bool), i.op ≠ .RTICK →
    ∃ t u : State, exec i s = .next t ∧ exec i { s with estop := b } = .next u ∧ u = { t with estop := u.estop }

/-- R193: SGET hands back the pair of cells, or times out; no state changes. -/
def Obligations.SgetReadsOnePair : Prop :=
  ∀ (k : Key) (s : State) (r f : Fin 8), r.val = 2 * k.number → f.val = 2 * k.number + 1 →
    exec (.sget true k) s = .next { s with res := ⟨.entry ⟨s.memRead r, s.memRead f⟩, []⟩ } ∧
      exec (.sget false k) s = .next { s with res := ⟨.timeout, [.lockTimeout k]⟩ }

/-- R194: SSET writes the two cells of its entry and no other, or times out. -/
def Obligations.SsetWritesOnePair : Prop :=
  ∀ (k : Key) (a b : Rat) (s : State),
    (∃ t : State, exec (.sset true k a b) s = .next t ∧ t = { s with store := t.store, res := ⟨.ok, []⟩ } ∧
      ∀ addr : Fin 8, t.memRead addr =
        if addr.val = 2 * k.number then a else if addr.val = 2 * k.number + 1 then b else s.memRead addr) ∧
      exec (.sset false k a b) s = .next { s with res := ⟨.timeout, [.lockTimeout k]⟩ }

/-- R195: SFLD writes the cell `2*k + w` and no other, or times out. -/
def Obligations.SfldWritesOneCell : Prop :=
  ∀ (w : Field) (k : Key) (v : Rat) (s : State),
    (∃ t : State, exec (.sfld true w k v) s = .next t ∧ t = { s with store := t.store, res := ⟨.ok, []⟩ } ∧
      ∀ addr : Fin 8, t.memRead addr = if addr.val = 2 * k.number + w.number then v else s.memRead addr) ∧
      exec (.sfld false w k v) s = .next { s with res := ⟨.timeout, [.lockTimeout k]⟩ }

/-- Derived from rule R196, which the spec marks as its own inference from R193 and R194: a pair that was set is got
back exactly, whatever operations come between that do not write its entry. -/
def Obligations.StoreRoundTrip : Prop :=
  ∀ (k : Key) (a b : Rat) (between : List Instr) (s : State), (∀ i ∈ between, writesEntry k i = false) →
    ∃ t : State, runs (.sset true k a b :: between) s = .next t ∧
      exec (.sget true k) t = .next { t with res := ⟨.entry ⟨a, b⟩, []⟩ }

/-- R67, R197: EVPOP takes the oldest key, or hands back `NONE` and changes nothing. -/
def Obligations.EvpopTakesTheOldest : Prop :=
  ∀ s : State,
    (s.evq = [] → exec .evpop s = .next { s with res := ⟨.noEvent, []⟩ }) ∧
      ∀ (k : Key) (q : List Key), s.evq = k :: q → exec .evpop s = .next { s with evq := q, res := ⟨.key k, []⟩ }

/-- R66, R198: only MONC notifies, with key POWER, when its publish succeeds, and a full queue drops the new key;
every other operation leaves a suffix of the queue. -/
def Obligations.OnlyMoncNotifies : Prop :=
  ∀ (i : Instr) (s t : State), exec i s = .next t →
    (i.op ≠ .MONC → t.evq <:+ s.evq) ∧
      ∀ g : Bool, i = .monc g →
        t.evq = if g = true ∧ s.ring ≠ [] ∧ s.evq.length < s.cfg.evqCap then s.evq ++ [.power] else s.evq

/-- R199, R240: from any state RESET completes, gives every item of R240 its value, and keeps the parameters. -/
def Obligations.ResetGivesEveryItemItsValue : Prop :=
  ∀ s : State, ∃ t : State, exec .reset s = .next t ∧ t.cfg = s.cfg ∧ t.hall = 0b000 ∧ t.tcount = 0 ∧ t.target = 0 ∧
    t.soft = 0 ∧ t.integ = 0 ∧ t.perr = 0 ∧ t.filtA = 0 ∧ t.filtB = 0 ∧ t.pidOut = 0 ∧ t.motorOn = false ∧
    t.estop = false ∧ t.settling = true ∧ t.wasDisabled = true ∧ t.hallPending = false ∧ t.pidErr = false ∧
    t.drvEn = false ∧ t.drvPhase = .COAST ∧ t.drvDuty = 0 ∧ t.store.get .rpm = ⟨0, 0⟩ ∧ t.store.get .power = ⟨0, 0⟩ ∧
    t.store.get .pwm = ⟨0, 0⟩ ∧ t.store.get .climit = ⟨s.cfg.climitInit, s.cfg.climitInit⟩ ∧ t.ring = [] ∧ t.evq = []

/-- R240: the machine after reset holds every item's value. -/
def Obligations.StateAfterReset : Prop :=
  ∃ t : State, State.reset = t ∧ t.hall = 0b000 ∧ t.tcount = 0 ∧ t.target = 0 ∧
    t.soft = 0 ∧ t.integ = 0 ∧ t.perr = 0 ∧ t.filtA = 0 ∧ t.filtB = 0 ∧ t.pidOut = 0 ∧ t.motorOn = false ∧
    t.estop = false ∧ t.settling = true ∧ t.wasDisabled = true ∧ t.hallPending = false ∧ t.pidErr = false ∧
    t.drvEn = false ∧ t.drvPhase = .COAST ∧ t.drvDuty = 0 ∧ t.store.get .rpm = ⟨0, 0⟩ ∧ t.store.get .power = ⟨0, 0⟩ ∧
    t.store.get .pwm = ⟨0, 0⟩ ∧ t.store.get .climit = ⟨t.cfg.climitInit, t.cfg.climitInit⟩ ∧ t.ring = [] ∧ t.evq = []

/-! ## Exceptions -/

/-- Derived from rule R211, with log 15: raising an exception adds it to the result port after those already raised
and changes no state. -/
def Obligations.RaisingChangesNoState : Prop :=
  ∀ (s : State) (e : Exn), s.raise e = { s with res := ⟨s.res.result, s.res.raised ++ [e]⟩ }

/-- Derived from rules R122, R133, R139, R140, R174 and R211 to R218, and R231; the spec marks R231, and of R174 the
order of comparison and clobber, as its own inference; that an exception stands in the list `raised` of `res` is log
15: an operation raises an exception when, and only when, the "raised by" column gives it that exception and its cause
is there, and the exception carries the stated information. `SENSOR_SILENCE` and `RESOURCE_CREATION_FAILURE` are never
reported, and `ILLEGAL_OP` belongs to no operation. -/
def Obligations.OperationsRaiseOnlyTheirCodes : Prop :=
  ∀ (i : Instr) (s t : State), exec i s = .next t → ∀ x : Exn, x ∈ t.res.raised ↔ hasCause i s x

/-- Derived from rule R231, which the spec marks as its own inference from R167 and R140: at most two exceptions in
one operation, and two only in MONC and SPDC. -/
def Obligations.OnlyMoncAndSpdcRaiseTwo : Prop :=
  ∀ (i : Instr) (s t : State), exec i s = .next t →
    t.res.raised.length ≤ 2 ∧ (t.res.raised.length = 2 → i.op = .MONC ∨ i.op = .SPDC)

/-! ## The whole machine -/

/-- R225: an operation that a principal may present changes only the state that principal may write. -/
def Obligations.PrincipalsWriteOnlyTheirState : Prop :=
  ∀ (p : Principal) (i : Instr) (s t : State), p.mayPresent i = true → exec i s = .next t → p.writesOnlyItsState s t

/-- Derived from rules R8, R9, R20, R38 to R40, R62, R106, R160, of which the spec marks R38, R39, R106 and R160 as
its own inference; that the parameters after reset are admissible is log 4, and their widths of 32 and the clause `1
<= RPM_BITS` are log 5, and the constraints on the parameters of R8 and their defaults after reset are log 6: R38 to
R40, R106, R160, the types of R20 and R62 and the constraints of R9 hold after reset. -/
def Obligations.InvariantHoldsAtReset : Prop := State.reset.Inv

/-- Derived from rules R9, R20, R38 to R40, R62, R106, R160, of which the spec marks R38, R39, R106 and R160 as its
own inference; the invariant takes in as `cfgOk`, a premise here, that the parameters are admissible, whose clause `1
<= RPM_BITS` is log 5 and whose clauses on the parameters of R8 are log 6, and that no step changes them is log 4: R38
to R40, R106, R160, the types of R20 and R62 and the constraints of R9 are kept by every step, from every state that
has them. -/
def Obligations.EveryStepKeepsTheInvariant : Prop :=
  ∀ s t : State, s.Inv → step s = .next t → t.Inv

/-- Derived from rules R210, R263, R264 with the premise R265 (3); the spec marks R263 and R265 as its own inferences:
the block never blocks and never stops: if what the environment presents can be presented, every run of any length
goes on. -/
def Obligations.PresentableRunsNeverStop : Prop :=
  ∀ (n : Nat) (s : State), s.envPresentable = true → ∃ t : State, steps n s = .next t

/-! ## Configuration -/

/-- Derived from rules R8, R141 and R151; that the machine after reset has the defaults is log 6: DOC0's values are
the defaults of the configuration record, the machine after reset has them, and no operation changes the record. -/
def Obligations.ConfigurationHasItsDefaults : Prop :=
  ∃ g : Config.Given, State.reset.cfg.given = g ∧ g = {} ∧ g.transPerRev = 12 ∧ g.kp = 4 / 125 ∧ g.ki = 3 / 40 ∧
    g.kd = 1 / 20000 ∧ g.minFloor = 5 ∧ g.rpmMinValid = 100 ∧ g.rampWindow = 500 ∧ g.estopWindow = 1000 ∧
    g.rampTickrate = 100 ∧ g.stepNormal = 5 ∧ g.stepEstop = 10 ∧ g.alpha = 1 / 2 ∧ g.thirdPhase = 13 / 10 ∧
    g.commTimeoutMs = 500 ∧
    ∀ (i : Instr) (s t : State), exec i s = .next t → t.cfg.given = s.cfg.given
end

