-- ==== Sys2Proof/Laws/Buffers.lean ====
section
/-! SUPPORT. The two sequences (20_memory.md R62 to R67): every operation keeps them bounded. -/

namespace Sys2Proof.Machine

/-- A push keeps the ring within its capacity. -/
theorem ringPush_length_le {cap : Nat} {r : List Sample} (x : Sample) (hc : 1 ≤ cap) (hr : r.length ≤ cap) :
    (ringPush cap r x).length ≤ cap := by
  unfold ringPush
  split <;> simp <;> omega

/-- What a pushed ring holds was there or is the new pair. -/
theorem mem_ringPush {cap : Nat} {r : List Sample} {x p : Sample} (h : p ∈ ringPush cap r x) : p ∈ r ∨ p = x := by
  unfold ringPush at h
  split at h
  · rcases List.mem_append.mp h with h | h
    · exact .inl (List.mem_of_mem_drop h)
    · exact .inr (by simpa using h)
  · simpa using h

/-- Within the capacity a push is: append, then keep the newest `cap`. -/
theorem ringPush_eq_drop {cap : Nat} {r : List Sample} (x : Sample) (hc : 1 ≤ cap) (hr : r.length ≤ cap) :
    ringPush cap r x = (r ++ [x]).drop (r.length + 1 - cap) := by
  unfold ringPush
  split
  · rename_i h
    rw [show r.length + 1 - cap = 1 by omega, List.drop_append_of_le_length (by omega)]
  · rw [show r.length + 1 - cap = 0 by omega, List.drop_zero]

/-- A push keeps the event queue within its capacity. -/
theorem evPush_length_le {cap : Nat} {q : List Key} (k : Key) (hq : q.length ≤ cap) :
    (evPush cap q k).length ≤ cap := by
  unfold evPush
  split
  · simp; omega
  · exact hq

/-- A push appends the key or drops it. -/
theorem evPush_cases (cap : Nat) (q : List Key) (k : Key) :
    (q.length < cap ∧ evPush cap q k = q ++ [k]) ∨ (cap ≤ q.length ∧ evPush cap q k = q) := by
  unfold evPush
  split
  · exact .inl ⟨‹_›, rfl⟩
  · exact .inr ⟨by omega, rfl⟩

@[simp] theorem evPop_nil : evPop [] = (none, []) := rfl
@[simp] theorem evPop_cons (k : Key) (q : List Key) : evPop (k :: q) = (some k, q) := rfl

/-- A pop leaves the queue without its first element. -/
theorem evPop_snd (q : List Key) : (evPop q).2 = q.drop 1 := by cases q <;> rfl

end Sys2Proof.Machine
end

