-- ==== Sys2Proof/Laws/Config.lean ====
section
/-! SUPPORT. The parameters: the fixed steps in numbers, and that the parameters after reset are admissible. -/

namespace Sys2Proof.Config

@[simp] theorem Given.stepNormal_default : ({} : Given).stepNormal = 5 := rfl
@[simp] theorem Given.stepEstop_default : ({} : Given).stepEstop = 10 := rfl

/-- DOC0's values are admissible with every period R9 allows. -/
theorem Given.ok_default {period : Int} (h : 5 ≤ period) : ({} : Given).ok period := by
  refine ⟨by decide, ⟨by decide, h⟩, ?_⟩
  decide

/-- The configuration record of an admissible assignment is admissible. -/
theorem Params.given_ok {p : Params} (h : p.ok) : p.given.ok p.period := h.2.2.2.2.2.2.2.2.2.2.2.2.2

/-- The two steps are positive, the emergency step no smaller (R151). -/
theorem Params.steps_pos {p : Params} (h : p.ok) :
    0 < p.given.stepNormal ∧ p.given.stepNormal ≤ p.given.stepEstop := by
  obtain ⟨-, -, tick, window, larger, whole, -⟩ := Params.given_ok h
  exact ⟨Int.ediv_pos_of_pos_of_dvd window tick.le whole, Int.ediv_le_ediv tick larger⟩

theorem least_ok : least.ok := by decide +kernel

/-- An admissible assignment is kept as it is. -/
theorem Params.orLeast_of_ok {p : Params} (h : p.ok) : p.orLeast = p := if_pos h

/-- Whatever it is applied to, the result is admissible. -/
theorem Params.orLeast_ok (p : Params) : p.orLeast.ok := by
  unfold Params.orLeast
  split
  · assumption
  · exact least_ok

/-- The constraints of R9 ask nothing of the two widths but the sign bit (log 5), and of the parameters DOC0 gives what
their defaults keep (log 6): with the defaults in their place an assignment stays admissible. -/
theorem Params.ok_withDefaults {p : Params} (h : p.ok) (ctr : Nat) {rpm : Nat} (signBit : 1 ≤ rpm) :
    ({ p with ctrBits := ctr, rpmBits := rpm, given := {} } : Params).ok := by
  have record := Given.ok_default h.1
  simp only [Params.ok] at h ⊢
  tauto

/-- The parameters after reset are admissible, with the default widths. -/
theorem chosen_ok : chosen.ok := Params.ok_withDefaults openParams.orLeast_ok 32 (by decide)

@[simp] theorem chosen_given : chosen.given = {} := rfl
@[simp] theorem chosen_ctrBits : chosen.ctrBits = 32 := rfl
@[simp] theorem chosen_rpmBits : chosen.rpmBits = 32 := rfl

end Sys2Proof.Config

namespace Sys2Proof

theorem sampleFits_iff {c : Config.Params} {n : Nat} : sampleFits c n = true ↔ n ≤ c.adcMax := by
  simp only [sampleFits, Bool.or_eq_true, beq_iff_eq, decide_eq_true_eq]
  omega

theorem setpointFits_iff {c : Config.Params} {v : Int} :
    setpointFits c v = true ↔ -(2 ^ (c.rpmBits - 1) : Int) ≤ v ∧ v < (2 ^ (c.rpmBits - 1) : Int) := by
  simp [setpointFits]

/-- 0 fits every setpoint register. -/
@[simp] theorem setpointFits_zero (c : Config.Params) : setpointFits c 0 = true := by
  rw [setpointFits_iff]
  have : (0 : Int) < 2 ^ (c.rpmBits - 1) := by positivity
  omega

/-- A value between two that fit fits. -/
theorem setpointFits_between {c : Config.Params} {u v w : Int} (hu : setpointFits c u = true)
    (hw : setpointFits c w = true) (h1 : u ≤ v) (h2 : v ≤ w) : setpointFits c v = true := by
  rw [setpointFits_iff] at *
  omega

end Sys2Proof
end

