-- ==== Sys2Proof/Laws/Decode.lean ====
section
/-! SUPPORT. The decoder's parts: typed ports, the row a word selects. -/

namespace Sys2Proof

@[simp] theorem portNat_natCast (n : Nat) : portNat (n : Rat) = some n := by
  simp [portNat]

@[simp] theorem portInt_intCast (v : Int) : portInt (v : Rat) = some v := by
  simp [portInt]

/-- A port that carries a natural number is that number. -/
theorem portNat_eq_some {q : Rat} {n : Nat} (h : portNat q = some n) : q = n := by
  unfold portNat at h
  split at h
  · rename_i hq
    have hn : q.num.toNat = n := by simpa using h
    have h2 : q.num = (n : Int) := by omega
    rw [← Rat.coe_int_num_of_den_eq_one hq.1, h2]
    simp
  · cases h

/-- A port that carries an integer is that integer. -/
theorem portInt_eq_some {q : Rat} {v : Int} (h : portInt q = some v) : q = v := by
  unfold portInt at h
  split at h
  · rename_i hq
    have hn : q.num = v := by simpa using h
    rw [← Rat.coe_int_num_of_den_eq_one hq, hn]
  · cases h

/-- A port that carries no natural number is rejected. -/
theorem portNat_eq_none {q : Rat} : portNat q = none ↔ ∀ n : Nat, q ≠ n := by
  constructor
  · intro h n hq
    subst hq; simp at h
  · intro h
    rcases hp : portNat q with _ | n
    · rfl
    · exact absurd (portNat_eq_some hp) (h n)

/-- A port that carries no integer is rejected. -/
theorem portInt_eq_none {q : Rat} : portInt q = none ↔ ∀ v : Int, q ≠ v := by
  constructor
  · intro h n hq
    subst hq; simp at h
  · intro h
    rcases hp : portInt q with _ | n
    · rfl
    · exact absurd (portInt_eq_some hp) (h n)

/-- What the decoder does with a word once its row is known. -/
theorem decode_of_rowOf {c : Command} {r : Row} (h : rowOf c.op = some r) : decode c = decodeAs r.op c := by
  unfold decode; rw [h]

/-- A word no row selects is reserved. -/
theorem decode_of_rowOf_none {c : Command} (h : rowOf c.op = none) : decode c = .error .reserved := by
  unfold decode; rw [h]

/-! ### The fields of R83 read back from the words that carry them -/

theorem fields_sset (g : Bool) (k : Key) :
    (0x68#8 ||| bitAt 2 g ||| BitVec.ofNat 8 k.number).getLsbD 2 = g ∧
      keyField (0x68#8 ||| bitAt 2 g ||| BitVec.ofNat 8 k.number) = k := by
  cases g <;> cases k <;> decide +kernel

theorem fields_sfld (g : Bool) (w : Field) (k : Key) :
    (0x70#8 ||| bitAt 3 g ||| BitVec.ofNat 8 (4 * w.number + k.number)).getLsbD 3 = g ∧
      whichField (0x70#8 ||| bitAt 3 g ||| BitVec.ofNat 8 (4 * w.number + k.number)) = w ∧
      keyField (0x70#8 ||| bitAt 3 g ||| BitVec.ofNat 8 (4 * w.number + k.number)) = k := by
  cases g <;> cases w <;> cases k <;> decide +kernel

end Sys2Proof
end

