-- ==== Sys2Proof/Laws/State.lean ====
section
/-! SUPPORT. One lemma per field per named update of State, true by rfl, so that no later proof unfolds an update. -/

namespace Sys2Proof.Machine.State

/-! ### `openRes` -/

@[simp] theorem openRes_cfg (s : State) : (s.openRes).cfg = s.cfg := rfl
@[simp] theorem openRes_hall (s : State) : (s.openRes).hall = s.hall := rfl
@[simp] theorem openRes_tcount (s : State) : (s.openRes).tcount = s.tcount := rfl
@[simp] theorem openRes_target (s : State) : (s.openRes).target = s.target := rfl
@[simp] theorem openRes_soft (s : State) : (s.openRes).soft = s.soft := rfl
@[simp] theorem openRes_integ (s : State) : (s.openRes).integ = s.integ := rfl
@[simp] theorem openRes_perr (s : State) : (s.openRes).perr = s.perr := rfl
@[simp] theorem openRes_filtA (s : State) : (s.openRes).filtA = s.filtA := rfl
@[simp] theorem openRes_filtB (s : State) : (s.openRes).filtB = s.filtB := rfl
@[simp] theorem openRes_pidOut (s : State) : (s.openRes).pidOut = s.pidOut := rfl
@[simp] theorem openRes_motorOn (s : State) : (s.openRes).motorOn = s.motorOn := rfl
@[simp] theorem openRes_estop (s : State) : (s.openRes).estop = s.estop := rfl
@[simp] theorem openRes_settling (s : State) : (s.openRes).settling = s.settling := rfl
@[simp] theorem openRes_wasDisabled (s : State) : (s.openRes).wasDisabled = s.wasDisabled := rfl
@[simp] theorem openRes_hallPending (s : State) : (s.openRes).hallPending = s.hallPending := rfl
@[simp] theorem openRes_pidErr (s : State) : (s.openRes).pidErr = s.pidErr := rfl
@[simp] theorem openRes_drvEn (s : State) : (s.openRes).drvEn = s.drvEn := rfl
@[simp] theorem openRes_drvPhase (s : State) : (s.openRes).drvPhase = s.drvPhase := rfl
@[simp] theorem openRes_drvDuty (s : State) : (s.openRes).drvDuty = s.drvDuty := rfl
@[simp] theorem openRes_store (s : State) : (s.openRes).store = s.store := rfl
@[simp] theorem openRes_ring (s : State) : (s.openRes).ring = s.ring := rfl
@[simp] theorem openRes_evq (s : State) : (s.openRes).evq = s.evq := rfl
@[simp] theorem openRes_res (s : State) : (s.openRes).res = ⟨.nothing, []⟩ := rfl
@[simp] theorem openRes_draws (s : State) : (s.openRes).draws = s.draws := rfl
@[simp] theorem openRes_env (s : State) : (s.openRes).env = s.env := rfl

/-! ### `answer` -/

@[simp] theorem answer_cfg (s : State) (r : Result) : (s.answer r).cfg = s.cfg := rfl
@[simp] theorem answer_hall (s : State) (r : Result) : (s.answer r).hall = s.hall := rfl
@[simp] theorem answer_tcount (s : State) (r : Result) : (s.answer r).tcount = s.tcount := rfl
@[simp] theorem answer_target (s : State) (r : Result) : (s.answer r).target = s.target := rfl
@[simp] theorem answer_soft (s : State) (r : Result) : (s.answer r).soft = s.soft := rfl
@[simp] theorem answer_integ (s : State) (r : Result) : (s.answer r).integ = s.integ := rfl
@[simp] theorem answer_perr (s : State) (r : Result) : (s.answer r).perr = s.perr := rfl
@[simp] theorem answer_filtA (s : State) (r : Result) : (s.answer r).filtA = s.filtA := rfl
@[simp] theorem answer_filtB (s : State) (r : Result) : (s.answer r).filtB = s.filtB := rfl
@[simp] theorem answer_pidOut (s : State) (r : Result) : (s.answer r).pidOut = s.pidOut := rfl
@[simp] theorem answer_motorOn (s : State) (r : Result) : (s.answer r).motorOn = s.motorOn := rfl
@[simp] theorem answer_estop (s : State) (r : Result) : (s.answer r).estop = s.estop := rfl
@[simp] theorem answer_settling (s : State) (r : Result) : (s.answer r).settling = s.settling := rfl
@[simp] theorem answer_wasDisabled (s : State) (r : Result) : (s.answer r).wasDisabled = s.wasDisabled := rfl
@[simp] theorem answer_hallPending (s : State) (r : Result) : (s.answer r).hallPending = s.hallPending := rfl
@[simp] theorem answer_pidErr (s : State) (r : Result) : (s.answer r).pidErr = s.pidErr := rfl
@[simp] theorem answer_drvEn (s : State) (r : Result) : (s.answer r).drvEn = s.drvEn := rfl
@[simp] theorem answer_drvPhase (s : State) (r : Result) : (s.answer r).drvPhase = s.drvPhase := rfl
@[simp] theorem answer_drvDuty (s : State) (r : Result) : (s.answer r).drvDuty = s.drvDuty := rfl
@[simp] theorem answer_store (s : State) (r : Result) : (s.answer r).store = s.store := rfl
@[simp] theorem answer_ring (s : State) (r : Result) : (s.answer r).ring = s.ring := rfl
@[simp] theorem answer_evq (s : State) (r : Result) : (s.answer r).evq = s.evq := rfl
@[simp] theorem answer_res (s : State) (r : Result) : (s.answer r).res = { s.res with result := r } := rfl
@[simp] theorem answer_draws (s : State) (r : Result) : (s.answer r).draws = s.draws := rfl
@[simp] theorem answer_env (s : State) (r : Result) : (s.answer r).env = s.env := rfl

/-! ### `raise` -/

@[simp] theorem raise_cfg (s : State) (e : Exn) : (s.raise e).cfg = s.cfg := rfl
@[simp] theorem raise_hall (s : State) (e : Exn) : (s.raise e).hall = s.hall := rfl
@[simp] theorem raise_tcount (s : State) (e : Exn) : (s.raise e).tcount = s.tcount := rfl
@[simp] theorem raise_target (s : State) (e : Exn) : (s.raise e).target = s.target := rfl
@[simp] theorem raise_soft (s : State) (e : Exn) : (s.raise e).soft = s.soft := rfl
@[simp] theorem raise_integ (s : State) (e : Exn) : (s.raise e).integ = s.integ := rfl
@[simp] theorem raise_perr (s : State) (e : Exn) : (s.raise e).perr = s.perr := rfl
@[simp] theorem raise_filtA (s : State) (e : Exn) : (s.raise e).filtA = s.filtA := rfl
@[simp] theorem raise_filtB (s : State) (e : Exn) : (s.raise e).filtB = s.filtB := rfl
@[simp] theorem raise_pidOut (s : State) (e : Exn) : (s.raise e).pidOut = s.pidOut := rfl
@[simp] theorem raise_motorOn (s : State) (e : Exn) : (s.raise e).motorOn = s.motorOn := rfl
@[simp] theorem raise_estop (s : State) (e : Exn) : (s.raise e).estop = s.estop := rfl
@[simp] theorem raise_settling (s : State) (e : Exn) : (s.raise e).settling = s.settling := rfl
@[simp] theorem raise_wasDisabled (s : State) (e : Exn) : (s.raise e).wasDisabled = s.wasDisabled := rfl
@[simp] theorem raise_hallPending (s : State) (e : Exn) : (s.raise e).hallPending = s.hallPending := rfl
@[simp] theorem raise_pidErr (s : State) (e : Exn) : (s.raise e).pidErr = s.pidErr := rfl
@[simp] theorem raise_drvEn (s : State) (e : Exn) : (s.raise e).drvEn = s.drvEn := rfl
@[simp] theorem raise_drvPhase (s : State) (e : Exn) : (s.raise e).drvPhase = s.drvPhase := rfl
@[simp] theorem raise_drvDuty (s : State) (e : Exn) : (s.raise e).drvDuty = s.drvDuty := rfl
@[simp] theorem raise_store (s : State) (e : Exn) : (s.raise e).store = s.store := rfl
@[simp] theorem raise_ring (s : State) (e : Exn) : (s.raise e).ring = s.ring := rfl
@[simp] theorem raise_evq (s : State) (e : Exn) : (s.raise e).evq = s.evq := rfl
@[simp] theorem raise_res (s : State) (e : Exn) :
    (s.raise e).res = { s.res with raised := s.res.raised ++ [e] } := rfl
@[simp] theorem raise_draws (s : State) (e : Exn) : (s.raise e).draws = s.draws := rfl
@[simp] theorem raise_env (s : State) (e : Exn) : (s.raise e).env = s.env := rfl

/-! ### `trip` -/

@[simp] theorem trip_cfg (s : State) : (s.trip).cfg = s.cfg := rfl
@[simp] theorem trip_hall (s : State) : (s.trip).hall = s.hall := rfl
@[simp] theorem trip_tcount (s : State) : (s.trip).tcount = s.tcount := rfl
@[simp] theorem trip_target (s : State) : (s.trip).target = s.target := rfl
@[simp] theorem trip_soft (s : State) : (s.trip).soft = s.soft := rfl
@[simp] theorem trip_integ (s : State) : (s.trip).integ = s.integ := rfl
@[simp] theorem trip_perr (s : State) : (s.trip).perr = s.perr := rfl
@[simp] theorem trip_filtA (s : State) : (s.trip).filtA = s.filtA := rfl
@[simp] theorem trip_filtB (s : State) : (s.trip).filtB = s.filtB := rfl
@[simp] theorem trip_pidOut (s : State) : (s.trip).pidOut = s.pidOut := rfl
@[simp] theorem trip_motorOn (s : State) : (s.trip).motorOn = s.motorOn := rfl
@[simp] theorem trip_estop (s : State) : (s.trip).estop = true := rfl
@[simp] theorem trip_settling (s : State) : (s.trip).settling = s.settling := rfl
@[simp] theorem trip_wasDisabled (s : State) : (s.trip).wasDisabled = s.wasDisabled := rfl
@[simp] theorem trip_hallPending (s : State) : (s.trip).hallPending = s.hallPending := rfl
@[simp] theorem trip_pidErr (s : State) : (s.trip).pidErr = s.pidErr := rfl
@[simp] theorem trip_drvEn (s : State) : (s.trip).drvEn = s.drvEn := rfl
@[simp] theorem trip_drvPhase (s : State) : (s.trip).drvPhase = s.drvPhase := rfl
@[simp] theorem trip_drvDuty (s : State) : (s.trip).drvDuty = s.drvDuty := rfl
@[simp] theorem trip_store (s : State) : (s.trip).store = s.store := rfl
@[simp] theorem trip_ring (s : State) : (s.trip).ring = s.ring := rfl
@[simp] theorem trip_evq (s : State) : (s.trip).evq = s.evq := rfl
@[simp] theorem trip_res (s : State) : (s.trip).res = s.res := rfl
@[simp] theorem trip_draws (s : State) : (s.trip).draws = s.draws := rfl
@[simp] theorem trip_env (s : State) : (s.trip).env = s.env := rfl

/-! ### `acknowledge` -/

@[simp] theorem acknowledge_cfg (s : State) : (s.acknowledge).cfg = s.cfg := rfl
@[simp] theorem acknowledge_hall (s : State) : (s.acknowledge).hall = s.hall := rfl
@[simp] theorem acknowledge_tcount (s : State) : (s.acknowledge).tcount = s.tcount := rfl
@[simp] theorem acknowledge_target (s : State) : (s.acknowledge).target = s.target := rfl
@[simp] theorem acknowledge_soft (s : State) : (s.acknowledge).soft = s.soft := rfl
@[simp] theorem acknowledge_integ (s : State) : (s.acknowledge).integ = s.integ := rfl
@[simp] theorem acknowledge_perr (s : State) : (s.acknowledge).perr = s.perr := rfl
@[simp] theorem acknowledge_filtA (s : State) : (s.acknowledge).filtA = s.filtA := rfl
@[simp] theorem acknowledge_filtB (s : State) : (s.acknowledge).filtB = s.filtB := rfl
@[simp] theorem acknowledge_pidOut (s : State) : (s.acknowledge).pidOut = s.pidOut := rfl
@[simp] theorem acknowledge_motorOn (s : State) : (s.acknowledge).motorOn = s.motorOn := rfl
@[simp] theorem acknowledge_estop (s : State) : (s.acknowledge).estop = false := rfl
@[simp] theorem acknowledge_settling (s : State) : (s.acknowledge).settling = s.settling := rfl
@[simp] theorem acknowledge_wasDisabled (s : State) : (s.acknowledge).wasDisabled = s.wasDisabled := rfl
@[simp] theorem acknowledge_hallPending (s : State) : (s.acknowledge).hallPending = s.hallPending := rfl
@[simp] theorem acknowledge_pidErr (s : State) : (s.acknowledge).pidErr = s.pidErr := rfl
@[simp] theorem acknowledge_drvEn (s : State) : (s.acknowledge).drvEn = s.drvEn := rfl
@[simp] theorem acknowledge_drvPhase (s : State) : (s.acknowledge).drvPhase = s.drvPhase := rfl
@[simp] theorem acknowledge_drvDuty (s : State) : (s.acknowledge).drvDuty = s.drvDuty := rfl
@[simp] theorem acknowledge_store (s : State) : (s.acknowledge).store = s.store := rfl
@[simp] theorem acknowledge_ring (s : State) : (s.acknowledge).ring = s.ring := rfl
@[simp] theorem acknowledge_evq (s : State) : (s.acknowledge).evq = s.evq := rfl
@[simp] theorem acknowledge_res (s : State) : (s.acknowledge).res = s.res := rfl
@[simp] theorem acknowledge_draws (s : State) : (s.acknowledge).draws = s.draws := rfl
@[simp] theorem acknowledge_env (s : State) : (s.acknowledge).env = s.env := rfl

/-! ### `writeEntry` -/

@[simp] theorem writeEntry_cfg (s : State) (k : Key) (e : Entry) : (s.writeEntry k e).cfg = s.cfg := rfl
@[simp] theorem writeEntry_hall (s : State) (k : Key) (e : Entry) : (s.writeEntry k e).hall = s.hall := rfl
@[simp] theorem writeEntry_tcount (s : State) (k : Key) (e : Entry) : (s.writeEntry k e).tcount = s.tcount := rfl
@[simp] theorem writeEntry_target (s : State) (k : Key) (e : Entry) : (s.writeEntry k e).target = s.target := rfl
@[simp] theorem writeEntry_soft (s : State) (k : Key) (e : Entry) : (s.writeEntry k e).soft = s.soft := rfl
@[simp] theorem writeEntry_integ (s : State) (k : Key) (e : Entry) : (s.writeEntry k e).integ = s.integ := rfl
@[simp] theorem writeEntry_perr (s : State) (k : Key) (e : Entry) : (s.writeEntry k e).perr = s.perr := rfl
@[simp] theorem writeEntry_filtA (s : State) (k : Key) (e : Entry) : (s.writeEntry k e).filtA = s.filtA := rfl
@[simp] theorem writeEntry_filtB (s : State) (k : Key) (e : Entry) : (s.writeEntry k e).filtB = s.filtB := rfl
@[simp] theorem writeEntry_pidOut (s : State) (k : Key) (e : Entry) : (s.writeEntry k e).pidOut = s.pidOut := rfl
@[simp] theorem writeEntry_motorOn (s : State) (k : Key) (e : Entry) : (s.writeEntry k e).motorOn = s.motorOn := rfl
@[simp] theorem writeEntry_estop (s : State) (k : Key) (e : Entry) : (s.writeEntry k e).estop = s.estop := rfl
@[simp] theorem writeEntry_settling (s : State) (k : Key) (e : Entry) :
    (s.writeEntry k e).settling = s.settling := rfl
@[simp] theorem writeEntry_wasDisabled (s : State) (k : Key) (e : Entry) :
    (s.writeEntry k e).wasDisabled = s.wasDisabled := rfl
@[simp] theorem writeEntry_hallPending (s : State) (k : Key) (e : Entry) :
    (s.writeEntry k e).hallPending = s.hallPending := rfl
@[simp] theorem writeEntry_pidErr (s : State) (k : Key) (e : Entry) : (s.writeEntry k e).pidErr = s.pidErr := rfl
@[simp] theorem writeEntry_drvEn (s : State) (k : Key) (e : Entry) : (s.writeEntry k e).drvEn = s.drvEn := rfl
@[simp] theorem writeEntry_drvPhase (s : State) (k : Key) (e : Entry) :
    (s.writeEntry k e).drvPhase = s.drvPhase := rfl
@[simp] theorem writeEntry_drvDuty (s : State) (k : Key) (e : Entry) : (s.writeEntry k e).drvDuty = s.drvDuty := rfl
@[simp] theorem writeEntry_store (s : State) (k : Key) (e : Entry) : (s.writeEntry k e).store = s.store.set e k := rfl
@[simp] theorem writeEntry_ring (s : State) (k : Key) (e : Entry) : (s.writeEntry k e).ring = s.ring := rfl
@[simp] theorem writeEntry_evq (s : State) (k : Key) (e : Entry) : (s.writeEntry k e).evq = s.evq := rfl
@[simp] theorem writeEntry_res (s : State) (k : Key) (e : Entry) : (s.writeEntry k e).res = s.res := rfl
@[simp] theorem writeEntry_draws (s : State) (k : Key) (e : Entry) : (s.writeEntry k e).draws = s.draws := rfl
@[simp] theorem writeEntry_env (s : State) (k : Key) (e : Entry) : (s.writeEntry k e).env = s.env := rfl

/-! ### `memWrite` -/

@[simp] theorem memWrite_cfg (s : State) (addr : Fin 8) (v : Rat) : (s.memWrite addr v).cfg = s.cfg := rfl
@[simp] theorem memWrite_hall (s : State) (addr : Fin 8) (v : Rat) : (s.memWrite addr v).hall = s.hall := rfl
@[simp] theorem memWrite_tcount (s : State) (addr : Fin 8) (v : Rat) : (s.memWrite addr v).tcount = s.tcount := rfl
@[simp] theorem memWrite_target (s : State) (addr : Fin 8) (v : Rat) : (s.memWrite addr v).target = s.target := rfl
@[simp] theorem memWrite_soft (s : State) (addr : Fin 8) (v : Rat) : (s.memWrite addr v).soft = s.soft := rfl
@[simp] theorem memWrite_integ (s : State) (addr : Fin 8) (v : Rat) : (s.memWrite addr v).integ = s.integ := rfl
@[simp] theorem memWrite_perr (s : State) (addr : Fin 8) (v : Rat) : (s.memWrite addr v).perr = s.perr := rfl
@[simp] theorem memWrite_filtA (s : State) (addr : Fin 8) (v : Rat) : (s.memWrite addr v).filtA = s.filtA := rfl
@[simp] theorem memWrite_filtB (s : State) (addr : Fin 8) (v : Rat) : (s.memWrite addr v).filtB = s.filtB := rfl
@[simp] theorem memWrite_pidOut (s : State) (addr : Fin 8) (v : Rat) : (s.memWrite addr v).pidOut = s.pidOut := rfl
@[simp] theorem memWrite_motorOn (s : State) (addr : Fin 8) (v : Rat) : (s.memWrite addr v).motorOn = s.motorOn := rfl
@[simp] theorem memWrite_estop (s : State) (addr : Fin 8) (v : Rat) : (s.memWrite addr v).estop = s.estop := rfl
@[simp] theorem memWrite_settling (s : State) (addr : Fin 8) (v : Rat) :
    (s.memWrite addr v).settling = s.settling := rfl
@[simp] theorem memWrite_wasDisabled (s : State) (addr : Fin 8) (v : Rat) :
    (s.memWrite addr v).wasDisabled = s.wasDisabled := rfl
@[simp] theorem memWrite_hallPending (s : State) (addr : Fin 8) (v : Rat) :
    (s.memWrite addr v).hallPending = s.hallPending := rfl
@[simp] theorem memWrite_pidErr (s : State) (addr : Fin 8) (v : Rat) : (s.memWrite addr v).pidErr = s.pidErr := rfl
@[simp] theorem memWrite_drvEn (s : State) (addr : Fin 8) (v : Rat) : (s.memWrite addr v).drvEn = s.drvEn := rfl
@[simp] theorem memWrite_drvPhase (s : State) (addr : Fin 8) (v : Rat) :
    (s.memWrite addr v).drvPhase = s.drvPhase := rfl
@[simp] theorem memWrite_drvDuty (s : State) (addr : Fin 8) (v : Rat) : (s.memWrite addr v).drvDuty = s.drvDuty := rfl
@[simp] theorem memWrite_store (s : State) (addr : Fin 8) (v : Rat) :
    (s.memWrite addr v).store = s.store.set ((s.store.get (addrKey addr)).set v (addrField addr)) (addrKey addr) := rfl
@[simp] theorem memWrite_ring (s : State) (addr : Fin 8) (v : Rat) : (s.memWrite addr v).ring = s.ring := rfl
@[simp] theorem memWrite_evq (s : State) (addr : Fin 8) (v : Rat) : (s.memWrite addr v).evq = s.evq := rfl
@[simp] theorem memWrite_res (s : State) (addr : Fin 8) (v : Rat) : (s.memWrite addr v).res = s.res := rfl
@[simp] theorem memWrite_draws (s : State) (addr : Fin 8) (v : Rat) : (s.memWrite addr v).draws = s.draws := rfl
@[simp] theorem memWrite_env (s : State) (addr : Fin 8) (v : Rat) : (s.memWrite addr v).env = s.env := rfl

/-! ### `writeAny` -/

@[simp] theorem writeAny_cfg (s : State) (k : Key) (v : Rat) : (s.writeAny k v).cfg = s.cfg := rfl
@[simp] theorem writeAny_hall (s : State) (k : Key) (v : Rat) : (s.writeAny k v).hall = s.hall := rfl
@[simp] theorem writeAny_tcount (s : State) (k : Key) (v : Rat) : (s.writeAny k v).tcount = s.tcount := rfl
@[simp] theorem writeAny_target (s : State) (k : Key) (v : Rat) : (s.writeAny k v).target = s.target := rfl
@[simp] theorem writeAny_soft (s : State) (k : Key) (v : Rat) : (s.writeAny k v).soft = s.soft := rfl
@[simp] theorem writeAny_integ (s : State) (k : Key) (v : Rat) : (s.writeAny k v).integ = s.integ := rfl
@[simp] theorem writeAny_perr (s : State) (k : Key) (v : Rat) : (s.writeAny k v).perr = s.perr := rfl
@[simp] theorem writeAny_filtA (s : State) (k : Key) (v : Rat) : (s.writeAny k v).filtA = s.filtA := rfl
@[simp] theorem writeAny_filtB (s : State) (k : Key) (v : Rat) : (s.writeAny k v).filtB = s.filtB := rfl
@[simp] theorem writeAny_pidOut (s : State) (k : Key) (v : Rat) : (s.writeAny k v).pidOut = s.pidOut := rfl
@[simp] theorem writeAny_motorOn (s : State) (k : Key) (v : Rat) : (s.writeAny k v).motorOn = s.motorOn := rfl
@[simp] theorem writeAny_estop (s : State) (k : Key) (v : Rat) : (s.writeAny k v).estop = s.estop := rfl
@[simp] theorem writeAny_settling (s : State) (k : Key) (v : Rat) : (s.writeAny k v).settling = s.settling := rfl
@[simp] theorem writeAny_wasDisabled (s : State) (k : Key) (v : Rat) :
    (s.writeAny k v).wasDisabled = s.wasDisabled := rfl
@[simp] theorem writeAny_hallPending (s : State) (k : Key) (v : Rat) :
    (s.writeAny k v).hallPending = s.hallPending := rfl
@[simp] theorem writeAny_pidErr (s : State) (k : Key) (v : Rat) : (s.writeAny k v).pidErr = s.pidErr := rfl
@[simp] theorem writeAny_drvEn (s : State) (k : Key) (v : Rat) : (s.writeAny k v).drvEn = s.drvEn := rfl
@[simp] theorem writeAny_drvPhase (s : State) (k : Key) (v : Rat) : (s.writeAny k v).drvPhase = s.drvPhase := rfl
@[simp] theorem writeAny_drvDuty (s : State) (k : Key) (v : Rat) : (s.writeAny k v).drvDuty = s.drvDuty := rfl
@[simp] theorem writeAny_store (s : State) (k : Key) (v : Rat) :
    (s.writeAny k v).store = s.store.set ⟨v, Config.freeCell s.draws⟩ k := rfl
@[simp] theorem writeAny_ring (s : State) (k : Key) (v : Rat) : (s.writeAny k v).ring = s.ring := rfl
@[simp] theorem writeAny_evq (s : State) (k : Key) (v : Rat) : (s.writeAny k v).evq = s.evq := rfl
@[simp] theorem writeAny_res (s : State) (k : Key) (v : Rat) : (s.writeAny k v).res = s.res := rfl
@[simp] theorem writeAny_draws (s : State) (k : Key) (v : Rat) : (s.writeAny k v).draws = s.draws + 1 := rfl
@[simp] theorem writeAny_env (s : State) (k : Key) (v : Rat) : (s.writeAny k v).env = s.env := rfl

/-! ### `presentFirst` -/

@[simp] theorem presentFirst_cfg (s : State) (c : Command) : (s.presentFirst c).cfg = s.cfg := rfl
@[simp] theorem presentFirst_hall (s : State) (c : Command) : (s.presentFirst c).hall = s.hall := rfl
@[simp] theorem presentFirst_tcount (s : State) (c : Command) : (s.presentFirst c).tcount = s.tcount := rfl
@[simp] theorem presentFirst_target (s : State) (c : Command) : (s.presentFirst c).target = s.target := rfl
@[simp] theorem presentFirst_soft (s : State) (c : Command) : (s.presentFirst c).soft = s.soft := rfl
@[simp] theorem presentFirst_integ (s : State) (c : Command) : (s.presentFirst c).integ = s.integ := rfl
@[simp] theorem presentFirst_perr (s : State) (c : Command) : (s.presentFirst c).perr = s.perr := rfl
@[simp] theorem presentFirst_filtA (s : State) (c : Command) : (s.presentFirst c).filtA = s.filtA := rfl
@[simp] theorem presentFirst_filtB (s : State) (c : Command) : (s.presentFirst c).filtB = s.filtB := rfl
@[simp] theorem presentFirst_pidOut (s : State) (c : Command) : (s.presentFirst c).pidOut = s.pidOut := rfl
@[simp] theorem presentFirst_motorOn (s : State) (c : Command) : (s.presentFirst c).motorOn = s.motorOn := rfl
@[simp] theorem presentFirst_estop (s : State) (c : Command) : (s.presentFirst c).estop = s.estop := rfl
@[simp] theorem presentFirst_settling (s : State) (c : Command) : (s.presentFirst c).settling = s.settling := rfl
@[simp] theorem presentFirst_wasDisabled (s : State) (c : Command) :
    (s.presentFirst c).wasDisabled = s.wasDisabled := rfl
@[simp] theorem presentFirst_hallPending (s : State) (c : Command) :
    (s.presentFirst c).hallPending = s.hallPending := rfl
@[simp] theorem presentFirst_pidErr (s : State) (c : Command) : (s.presentFirst c).pidErr = s.pidErr := rfl
@[simp] theorem presentFirst_drvEn (s : State) (c : Command) : (s.presentFirst c).drvEn = s.drvEn := rfl
@[simp] theorem presentFirst_drvPhase (s : State) (c : Command) : (s.presentFirst c).drvPhase = s.drvPhase := rfl
@[simp] theorem presentFirst_drvDuty (s : State) (c : Command) : (s.presentFirst c).drvDuty = s.drvDuty := rfl
@[simp] theorem presentFirst_store (s : State) (c : Command) : (s.presentFirst c).store = s.store := rfl
@[simp] theorem presentFirst_ring (s : State) (c : Command) : (s.presentFirst c).ring = s.ring := rfl
@[simp] theorem presentFirst_evq (s : State) (c : Command) : (s.presentFirst c).evq = s.evq := rfl
@[simp] theorem presentFirst_res (s : State) (c : Command) : (s.presentFirst c).res = s.res := rfl
@[simp] theorem presentFirst_draws (s : State) (c : Command) : (s.presentFirst c).draws = s.draws := rfl
@[simp] theorem presentFirst_env (s : State) (c : Command) : (s.presentFirst c).env = c :: s.env := rfl

end Sys2Proof.Machine.State
end

