-- ==== Sys2Proof/Laws/Store.lean ====
section
/-! SUPPORT. Read after write on the store (20_memory.md R61), by entry and by cell. -/

namespace Sys2Proof.Machine

@[simp] theorem Store.get_set_same (st : Store) (e : Entry) (k : Key) : (st.set e k).get k = e := by
  cases k <;> rfl

theorem Store.get_set_ne (st : Store) (e : Entry) {k k' : Key} (h : k' ≠ k) : (st.set e k).get k' = st.get k' := by
  cases k <;> cases k' <;> first | rfl | exact absurd rfl h

@[simp] theorem Entry.get_set_same (e : Entry) (v : Rat) (w : Field) : (e.set v w).get w = v := by
  cases w <;> rfl

theorem Entry.get_set_ne (e : Entry) (v : Rat) {w w' : Field} (h : w' ≠ w) : (e.set v w).get w' = e.get w' := by
  cases w <;> cases w' <;> first | rfl | exact absurd rfl h

/-- The address of a cell is `2*k + w` of its key and field. -/
theorem cellAddr_of_addr (addr : Fin 8) : cellAddr (addrKey addr) (addrField addr) = addr.val := by
  revert addr; decide

/-- Two addresses with the same key and field are one address. -/
theorem addr_ext {a b : Fin 8} (hk : addrKey a = addrKey b) (hf : addrField a = addrField b) : a = b := by
  apply Fin.ext
  rw [← cellAddr_of_addr a, ← cellAddr_of_addr b, hk, hf]

/-- A cell reads back what was written to it. -/
@[simp] theorem State.memRead_memWrite_same (s : State) (addr : Fin 8) (v : Rat) :
    (s.memWrite addr v).memRead addr = v := by
  simp [State.memRead]

/-- A write of one cell leaves the other seven. -/
theorem State.memRead_memWrite_ne (s : State) {a addr : Fin 8} (v : Rat) (h : a ≠ addr) :
    (s.memWrite addr v).memRead a = s.memRead a := by
  unfold State.memRead
  rw [State.memWrite_store]
  by_cases hk : addrKey a = addrKey addr
  · rw [hk, Store.get_set_same]
    exact Entry.get_set_ne _ _ fun hf => h (addr_ext hk hf)
  · rw [Store.get_set_ne _ _ hk]

/-- A write of one entry leaves the cells of the others. -/
theorem State.memRead_writeEntry_ne (s : State) {k : Key} (e : Entry) {a : Fin 8} (h : addrKey a ≠ k) :
    (s.writeEntry k e).memRead a = s.memRead a := by
  unfold State.memRead
  rw [State.writeEntry_store, Store.get_set_ne _ _ h]

/-- A cell depends on its key's entry alone. -/
theorem State.memRead_congr {s t : State} {a : Fin 8} (h : s.store.get (addrKey a) = t.store.get (addrKey a)) :
    s.memRead a = t.memRead a := by
  unfold State.memRead; rw [h]

@[simp] theorem addrKey_cellOf (k : Key) (w : Field) : addrKey (cellOf k w) = k := by
  cases k <;> cases w <;> rfl

@[simp] theorem addrField_cellOf (k : Key) (w : Field) : addrField (cellOf k w) = w := by
  cases k <;> cases w <;> rfl

/-- The number of the cell of `S[k].w` is `2*k + w` (R61). -/
theorem cellOf_val (k : Key) (w : Field) : (cellOf k w).val = 2 * k.number + w.number := by
  cases k <;> cases w <;> rfl

end Sys2Proof.Machine
end

