-- ==== Sys2Proof/Laws/Ops.lean ====
section
/-! SUPPORT. One spec lemma per shared operation: everything it can do. -/

namespace Sys2Proof.Machine

/-! ### Publishing under a grant -/

@[simp] theorem State.publishAny_granted (s : State) (k : Key) (v : Rat) : s.publishAny true k v = s.writeAny k v := rfl

@[simp] theorem State.publishAny_timeout (s : State) (k : Key) (v : Rat) :
    s.publishAny false k v = s.raise (.lockTimeout k) := rfl

/-- A publish changes the entry it names, the count of draws and the result port, nothing else. -/
theorem State.publishAny_eq (s : State) (g : Bool) (k : Key) (v : Rat) :
    s.publishAny g k v =
      { s with
        store := if g then s.store.set ⟨v, Config.freeCell s.draws⟩ k else s.store
        draws := if g then s.draws + 1 else s.draws
        res := if g then s.res else { s.res with raised := s.res.raised ++ [.lockTimeout k] } } := by
  cases g <;> rfl

theorem State.publishAny_raised (s : State) (g : Bool) (k : Key) (v : Rat) :
    (s.publishAny g k v).res.raised = s.res.raised ++ if g then [] else [.lockTimeout k] := by
  cases g <;> simp

/-! ### The commutation step -/

/-- With the motor off the driver is stopped and disabled (R102). -/
theorem State.commutate_off {s : State} (h : HallCode) (hm : s.motorOn = false) :
    s.commutate h = { s with drvPhase := .COAST, drvEn := false, wasDisabled := true } := by
  unfold State.commutate; rw [if_neg (by simp [hm])]

/-- With the motor on the phase is driven, after one enable if the engine was disabled (R102). -/
theorem State.commutate_on {s : State} (h : HallCode) (hm : s.motorOn = true) :
    s.commutate h =
      { s with drvPhase := decodePosition h, drvEn := s.wasDisabled || s.drvEn, wasDisabled := false } := by
  unfold State.commutate
  rw [if_pos hm]
  cases hw : s.wasDisabled <;> simp [hw]

/-- `commutate` writes the three items of the engine and the driver port, nothing else (R102). -/
theorem State.commutate_eq (s : State) (h : HallCode) :
    s.commutate h =
      { s with
        drvPhase := bif s.motorOn then decodePosition h else .COAST
        drvEn := s.motorOn && (s.wasDisabled || s.drvEn)
        wasDisabled := !s.motorOn } := by
  cases hm : s.motorOn
  · simp [State.commutate_off h hm, hm]
  · simp [State.commutate_on h hm, hm]

/-! ### RPMS -/

@[simp] theorem State.sampleRpm_zero (s : State) (g : Bool) : s.sampleRpm g 0 = (none, s.raise .rpmZeroElapsed) := rfl

theorem State.sampleRpm_pos (s : State) (g : Bool) {e : Nat} (h : e ≠ 0) :
    s.sampleRpm g e =
      (some (rpmOf s.cfg s.tcount e), { s with tcount := 0 }.publishAny g .rpm (rpmOf s.cfg s.tcount e)) :=
  if_neg h

/-! ### PIDS: the five cases -/

theorem State.runPid_resetSignal (s : State) : s.runPid 0 (-1) = s.pidClear := if_pos ⟨rfl, rfl⟩

theorem State.runPid_zeroSoft (s : State) (m : Rat) (e : Int) (h : s.soft = 0) : s.runPid m e = s.pidClear := by
  unfold State.runPid
  rw [if_pos h, ite_self]

theorem State.runPid_invalid (s : State) {m : Rat} {e : Int} (h1 : ¬(m = 0 ∧ e = -1)) (h2 : s.soft ≠ 0)
    (h3 : m < 0 ∨ e ≤ 0) : s.runPid m e = s.pidInvalid := by
  unfold State.runPid; rw [if_neg h1, if_neg h2, if_pos h3]

theorem State.runPid_kick (s : State) {m : Rat} {e : Int} (h2 : s.soft ≠ 0) (hm : 0 ≤ m) (he : 0 < e)
    (h4 : m < s.cfg.given.rpmMinValid) : s.runPid m e = s.pidKick := by
  unfold State.runPid
  rw [if_neg (by omega), if_neg h2, if_neg (not_or.mpr ⟨not_lt.mpr hm, by omega⟩), if_pos h4]

theorem State.runPid_normal (s : State) {m : Rat} {e : Int} (h2 : s.soft ≠ 0) (hm : 0 ≤ m) (he : 0 < e)
    (h4 : s.cfg.given.rpmMinValid ≤ m) : s.runPid m e = s.pidNormal m e := by
  unfold State.runPid
  rw [if_neg (by omega), if_neg h2, if_neg (not_or.mpr ⟨not_lt.mpr hm, by omega⟩), if_neg (not_lt.mpr h4)]

/-- Everything PIDS can do: one of its four outcomes. -/
theorem State.runPid_cases (s : State) (m : Rat) (e : Int) :
    s.runPid m e = s.pidClear ∨ s.runPid m e = s.pidInvalid ∨ s.runPid m e = s.pidKick ∨
      s.runPid m e = s.pidNormal m e := by
  unfold State.runPid
  split_ifs <;> simp

/-- PIDS raises `PID_INVALID_INPUT` and sets `pid_err` in case 3; in every other case it raises nothing and clears the
flag (R133, R213). -/
theorem State.runPid_reports (s : State) (m : Rat) (e : Int) :
    ((s.soft ≠ 0 ∧ ¬(m = 0 ∧ e = -1) ∧ (m < 0 ∨ e ≤ 0)) ∧ (s.runPid m e).2.pidErr = true ∧
        (s.runPid m e).2.res.raised = s.res.raised ++ [.pidInvalidInput]) ∨
      (¬(s.soft ≠ 0 ∧ ¬(m = 0 ∧ e = -1) ∧ (m < 0 ∨ e ≤ 0)) ∧ (s.runPid m e).2.pidErr = false ∧
        (s.runPid m e).2.res.raised = s.res.raised) := by
  unfold State.runPid
  split_ifs with isReset stopped invalid
  · exact .inr ⟨fun h => h.2.1 isReset, rfl, rfl⟩
  · exact .inr ⟨fun h => h.1 stopped, rfl, rfl⟩
  · exact .inl ⟨⟨stopped, isReset, invalid⟩, rfl, rfl⟩
  all_goals exact .inr ⟨fun h => invalid h.2.2, rfl, rfl⟩

/-- PIDS writes its four registers and the result port, nothing else (R138). -/
theorem State.runPid_frame (s : State) (m : Rat) (e : Int) :
    (s.runPid m e).2 =
      { s with
        integ := (s.runPid m e).2.integ
        perr := (s.runPid m e).2.perr
        pidOut := (s.runPid m e).2.pidOut
        pidErr := (s.runPid m e).2.pidErr
        res := (s.runPid m e).2.res } := by
  rcases s.runPid_cases m e with h | h | h | h <;> rw [h] <;> rfl

/-- PIDS does not look at the result port: it adds its exceptions to those already raised. -/
theorem State.runPid_openRes (s : State) (m : Rat) (e : Int) :
    (s.runPid m e).1 = (s.openRes.runPid m e).1 ∧
      (s.runPid m e).2 =
        { (s.openRes.runPid m e).2 with
          res := ⟨s.res.result, s.res.raised ++ (s.openRes.runPid m e).2.res.raised⟩ } := by
  by_cases h1 : m = 0 ∧ e = -1
  · obtain ⟨rfl, rfl⟩ := h1
    rw [s.runPid_resetSignal, s.openRes.runPid_resetSignal]
    exact ⟨rfl, by simp [State.pidClear, State.openRes]⟩
  by_cases h2 : s.soft = 0
  · rw [s.runPid_zeroSoft m e h2, s.openRes.runPid_zeroSoft m e h2]
    exact ⟨rfl, by simp [State.pidClear, State.openRes]⟩
  by_cases h3 : m < 0 ∨ e ≤ 0
  · rw [s.runPid_invalid h1 h2 h3, s.openRes.runPid_invalid h1 h2 h3]
    exact ⟨rfl, by simp [State.pidInvalid, State.raise, State.openRes]⟩
  have hm : 0 ≤ m := not_lt.mp fun h => h3 (.inl h)
  have he : 0 < e := not_le.mp fun h => h3 (.inr h)
  by_cases h4 : m < s.cfg.given.rpmMinValid
  · rw [s.runPid_kick h2 hm he h4, s.openRes.runPid_kick h2 hm he h4]
    exact ⟨rfl, by simp [State.pidKick, State.openRes]⟩
  · rw [s.runPid_normal h2 hm he (not_lt.mp h4), s.openRes.runPid_normal h2 hm he (not_lt.mp h4)]
    exact ⟨rfl, by simp [State.pidNormal, State.openRes]⟩

/-- The saturated output is a duty (R137). -/
theorem saturate_mem {c : Config.Params} (h : c.ok) (out : Rat) : 0 ≤ saturate c out ∧ saturate c out ≤ c.period := by
  have h5 : (5 : Rat) ≤ c.period := by exact_mod_cast h.1
  obtain ⟨-, ⟨floor0, floorPeriod⟩, -⟩ := Config.Params.given_ok h
  have f0 : (0 : Rat) ≤ c.given.minFloor := by exact_mod_cast floor0
  have f1 : (c.given.minFloor : Rat) ≤ c.period := by exact_mod_cast floorPeriod
  have key : ∀ q : Rat, 0 ≤ q → q ≤ c.period → 0 ≤ q.floor ∧ q.floor ≤ c.period := fun q h0 h1 =>
    ⟨Int.floor_nonneg.mpr h0, by exact_mod_cast (Int.floor_le q).trans h1⟩
  unfold saturate
  apply key <;> split_ifs <;> linarith

/-! ### DAPP -/

theorem State.applyDuty_hold (s : State) (g : Bool) (h : s.pidErr = true) : s.applyDuty g = s := if_pos h

theorem State.applyDuty_apply (s : State) (g : Bool) (h : s.pidErr = false) :
    s.applyDuty g = { s with drvDuty := s.pidOut }.publishAny g .pwm s.pidOut := by
  unfold State.applyDuty; rw [h]; rfl

/-- DAPP raises at most the timeout of its publish, and nothing while it holds. -/
theorem State.applyDuty_raised (s : State) (g : Bool) :
    (s.applyDuty g).res.raised =
      s.res.raised ++ if s.pidErr = false ∧ g = false then [.lockTimeout .pwm] else [] := by
  rcases h : s.pidErr
  · rw [s.applyDuty_apply g h]; cases g <;> simp
  · rw [s.applyDuty_hold g h]; simp

/-- DAPP writes the duty port and `S[2]`, nothing else. -/
theorem State.applyDuty_frame (s : State) (g : Bool) :
    s.applyDuty g =
      { s with
        drvDuty := if s.pidErr then s.drvDuty else s.pidOut
        store := (s.applyDuty g).store
        draws := (s.applyDuty g).draws
        res := (s.applyDuty g).res } := by
  rcases h : s.pidErr
  · rw [s.applyDuty_apply g h, State.publishAny_eq]; simp [h]
  · rw [s.applyDuty_hold g h]; simp [← h]

/-- DAPP does not look at the result port: it adds its exception to those already raised. -/
theorem State.applyDuty_openRes (s : State) (g : Bool) :
    s.applyDuty g =
      { s.openRes.applyDuty g with res := ⟨s.res.result, s.res.raised ++ (s.openRes.applyDuty g).res.raised⟩ } := by
  rcases h : s.pidErr
  · rw [s.applyDuty_apply g h, s.openRes.applyDuty_apply g h]
    cases g <;> simp [State.publishAny, State.raise, State.openRes, State.writeAny]
  · rw [s.applyDuty_hold g h, s.openRes.applyDuty_hold g h]
    simp [State.openRes]

/-! ### RTICK -/

theorem withinStep_iff {soft target step : Int} : withinStep soft target step = true ↔ |soft - target| ≤ step := by
  simp [withinStep]

theorem tickStops_iff {m : Bool} {t : Int} : tickStops m t = true ↔ m = false ∧ t ≤ 0 := by
  cases m <;> simp [tickStops]

/-- The step of a tick is positive and at most the emergency step (R151, R157). -/
theorem State.rampStep_pos {s : State} (h : s.cfg.ok) : 0 < s.rampStep ∧ s.rampStep ≤ s.cfg.given.stepEstop := by
  have steps := Config.Params.steps_pos h
  unfold State.rampStep
  split <;> omega

/-- The three moves of steps 4 and 5 (R152). -/
theorem State.rampMove_cases (s : State) (step : Int) :
    (|s.soft - s.target| ≤ step ∧
        s.rampMove step = { s with soft := s.target, motorOn := if s.target = 0 then false else s.motorOn }) ∨
      (step < |s.soft - s.target| ∧ s.soft < s.target ∧ s.rampMove step = { s with soft := s.soft + step }) ∨
      (step < |s.soft - s.target| ∧ s.target ≤ s.soft ∧ s.rampMove step = { s with soft := s.soft - step }) := by
  unfold State.rampMove
  by_cases h : |s.soft - s.target| ≤ step
  · exact .inl ⟨h, if_pos (withinStep_iff.mpr h)⟩
  · rw [if_neg (mt withinStep_iff.mp h)]
    by_cases h' : s.soft < s.target
    · exact .inr (.inl ⟨not_le.mp h, h', if_pos h'⟩)
    · exact .inr (.inr ⟨not_le.mp h, not_lt.mp h', if_neg h'⟩)

/-! ### MONC -/

theorem exceedsLimit_iff {imA limit : Rat} : exceedsLimit imA limit = true ↔ limit < imA := by simp [exceedsLimit]

/-- The comparator sets `estop` and raises, or does nothing (R174). -/
theorem State.compareAndTrip_eq (s : State) (imA limit : Rat) :
    s.compareAndTrip imA limit =
      { s with
        estop := s.estop || exceedsLimit imA limit
        res := if exceedsLimit imA limit then { s.res with raised := s.res.raised ++ [.overcurrent imA] } else s.res } := by
  unfold State.compareAndTrip
  cases exceedsLimit imA limit
  · simp
  · simp [State.raise, State.trip]

/-- The clobber writes the limit entry and ends the settling phase, or does nothing (R175). -/
theorem State.clobberLimit_eq (s : State) (imA limit : Rat) :
    s.clobberLimit imA limit =
      { s with
        store :=
          { s.store with
            climit :=
              if ignoredWhileSettling s.settling imA limit then s.store.climit else ⟨imA, Config.freeCell s.draws⟩ }
        draws := if ignoredWhileSettling s.settling imA limit then s.draws else s.draws + 1
        settling := ignoredWhileSettling s.settling imA limit } := by
  unfold State.clobberLimit
  cases h : ignoredWhileSettling s.settling imA limit
  · simp [State.writeAny, Store.set]
  · have hs : s.settling = true := by
      cases hs : s.settling
      · simp [ignoredWhileSettling, hs] at h
      · rfl
    simp [← hs]

/-- The publish writes the power entry and pushes its key, or raises (R176). -/
theorem State.publishPower_eq (s : State) (g : Bool) (p f : Rat) :
    s.publishPower g p f =
      { s with
        store := { s.store with power := if g then ⟨p, f⟩ else s.store.power }
        evq := if g then evPush s.cfg.evqCap s.evq .power else s.evq
        res := if g then s.res else { s.res with raised := s.res.raised ++ [.lockTimeout .power] } } := by
  cases g <;> rfl

/-! ### Every operation -/

/-- No operation stops (R210). -/
theorem exec_next (i : Instr) (s : State) : ∃ t : State, exec i s = .next t := by
  cases i <;> try exact ⟨_, rfl⟩
  case rpms g e => simp only [exec, execRpms]; split <;> exact ⟨_, rfl⟩
  case spdc g e ms => simp only [exec, execSpdc]; split <;> exact ⟨_, rfl⟩
  case monc g => simp only [exec, execMonc]; split <;> exact ⟨_, rfl⟩

/-! ### Power-up -/

theorem State.powerUp_eq (s : State) :
    s.powerUp = { State.initial s.cfg with env := s.env, draws := s.draws } := rfl

end Sys2Proof.Machine
end

