-- ==== Sys2Proof/Laws/PerInstr.lean ====
section
/-! SUPPORT. Statements made per operation. `RowSelects`: the operation's word is the one its own row of the opcode map
selects, and the first such (30_encoding.md R82, R87). -/

namespace Sys2Proof.Laws.RowSelects

/-- The first row that selects the operation's word is the operation's own row. -/
def Statement (i : Instr) : Prop := (rowOf (opWord i)).map Row.op = some i.op

/-- The rows of the words whose operations carry port operands. -/
theorem rowOf_words :
    (rowOf 0x20 = some ⟨.RPMS, 0x20, 0xFE⟩ ∧ rowOf 0x21 = some ⟨.RPMS, 0x20, 0xFE⟩) ∧
      rowOf 0x22 = some ⟨.PIDS, 0x22, 0xFF⟩ ∧
      (rowOf 0x26 = some ⟨.SPDC, 0x26, 0xFE⟩ ∧ rowOf 0x27 = some ⟨.SPDC, 0x26, 0xFE⟩) ∧
      rowOf 0x40 = some ⟨.ADCP, 0x40, 0xFF⟩ ∧ rowOf 0x50 = some ⟨.TSET, 0x50, 0xFF⟩ := by
  decide +kernel

/-- SSET's word, whatever its operands. -/
theorem rowOf_sset (g : Bool) (k : Key) :
    rowOf (0x68#8 ||| bitAt 2 g ||| BitVec.ofNat 8 k.number) = some ⟨.SSET, 0x68, 0xF8⟩ := by
  cases g <;> cases k <;> decide +kernel

/-- SFLD's word, whatever its operand. -/
theorem rowOf_sfld (g : Bool) (w : Field) (k : Key) :
    rowOf (0x70#8 ||| bitAt 3 g ||| BitVec.ofNat 8 (4 * w.number + k.number)) = some ⟨.SFLD, 0x70, 0xF0⟩ := by
  cases g <;> cases w <;> cases k <;> decide +kernel

theorem hedge (x : Sensor) (l : Bool) : Statement (.hedge x l) := by
  unfold Statement; cases x <;> cases l <;> decide +kernel
theorem cwake : Statement .cwake := by unfold Statement; decide +kernel
theorem cpoll (p : HallCode) : Statement (.cpoll p) := by unfold Statement; revert p; decide +kernel
theorem rpms (g : Bool) (e : Nat) : Statement (.rpms g e) := by
  cases g
  · exact congrArg (Option.map Row.op) rowOf_words.1.1
  · exact congrArg (Option.map Row.op) rowOf_words.1.2
theorem pids (m : Rat) (ms : Int) : Statement (.pids m ms) := congrArg (Option.map Row.op) rowOf_words.2.1
theorem dapp (g : Bool) : Statement (.dapp g) := by unfold Statement; cases g <;> decide +kernel
theorem spdc (g : Bool) (e : Nat) (ms : Int) : Statement (.spdc g e ms) := by
  cases g
  · exact congrArg (Option.map Row.op) rowOf_words.2.2.1.1
  · exact congrArg (Option.map Row.op) rowOf_words.2.2.1.2
theorem rtick : Statement .rtick := by unfold Statement; decide +kernel
theorem adcp (a b : Nat) : Statement (.adcp a b) := congrArg (Option.map Row.op) rowOf_words.2.2.2.1
theorem monc (g : Bool) : Statement (.monc g) := by unfold Statement; cases g <;> decide +kernel
theorem tset (v : Int) : Statement (.tset v) := congrArg (Option.map Row.op) rowOf_words.2.2.2.2
theorem eset : Statement .eset := by unfold Statement; decide +kernel
theorem eack : Statement .eack := by unfold Statement; decide +kernel
theorem sget (g : Bool) (k : Key) : Statement (.sget g k) := by
  unfold Statement; cases g <;> cases k <;> decide +kernel
theorem sset (g : Bool) (k : Key) (r f : Rat) : Statement (.sset g k r f) :=
  congrArg (Option.map Row.op) (rowOf_sset g k)
theorem sfld (g : Bool) (w : Field) (k : Key) (v : Rat) : Statement (.sfld g w k v) :=
  congrArg (Option.map Row.op) (rowOf_sfld g w k)
theorem evpop : Statement .evpop := by unfold Statement; decide +kernel
theorem reset : Statement .reset := by unfold Statement; decide +kernel

end Sys2Proof.Laws.RowSelects
end

