-- ==== Sys2Proof/Laws/Step.lean ====
section
/-! SUPPORT. Everything one step can do, once. -/

namespace Sys2Proof.Machine

@[simp] theorem State.takeCommand_nil {s : State} (h : s.env = []) : s.takeCommand = none := by
  unfold State.takeCommand; rw [h]

theorem State.takeCommand_cons {s : State} {c : Command} {rest : List Command} (h : s.env = c :: rest) :
    s.takeCommand = some (c, { s with env := rest }) := by
  unfold State.takeCommand; rw [h]

/-- A step is the wait, or the first command taking effect. -/
theorem step_eq (s : State) :
    (s.env = [] ∧ step s = .next s) ∨
      ∃ c rest, s.env = c :: rest ∧ step s = present c { s with env := rest } := by
  unfold step
  rcases h : s.env with _ | ⟨c, rest⟩
  · exact .inl ⟨rfl, by rw [State.takeCommand_nil h]⟩
  · exact .inr ⟨c, rest, rfl, by rw [State.takeCommand_cons h]⟩

/-- Inversion of a step that goes on: the wait, a reserved word, or a well-formed operation. -/
theorem step_cases {s t : State} (h : step s = .next t) :
    (s.env = [] ∧ t = s) ∨
      ∃ c rest, s.env = c :: rest ∧
        ((decode c = .error .reserved ∧ t = { s with env := rest }.illegalOp c.op) ∨
          ∃ i, decode c = .ok i ∧ i.wellFormed s.cfg = true ∧ exec i { s with env := rest } = .next t) := by
  rcases step_eq s with ⟨he, hs⟩ | ⟨c, rest, he, hs⟩
  · rw [hs] at h
    exact .inl ⟨he, by cases h; rfl⟩
  · refine .inr ⟨c, rest, he, ?_⟩
    rw [hs] at h
    unfold present at h
    split at h
    · rename_i hd; cases h; exact .inl ⟨hd, rfl⟩
    · cases h
    · rename_i i hd
      split at h
      · rename_i hw; exact .inr ⟨i, hd, hw, h⟩
      · cases h

/-- The illegal-operation answer changes the result port alone. -/
theorem State.illegalOp_eq (s : State) (w : OpWord) :
    s.illegalOp w = { s with res := ⟨.illegal, [.illegalOp w]⟩ } := rfl

end Sys2Proof.Machine
end

