-- ==== Sys2Proof/Written.lean ====
section
/-! DEFINITION. The written form of an operation (30_encoding.md R88), the notation of 95_test_vectors.md. -/

namespace Sys2Proof

def Sensor.written : Sensor → String
  | .A => "A"
  | .B => "B"
  | .C => "C"

def Key.written : Key → String
  | .rpm => "RPM"
  | .power => "POWER"
  | .pwm => "PWM"
  | .climit => "CLIMIT"

def Field.written : Field → String
  | .raw => "raw"
  | .filtered => "filtered"

/-- A rational as `n/d`, an integer as itself; read exactly (log 23). -/
def writtenRat (q : Rat) : String := if q.den = 1 then toString q.num else toString q.num ++ "/" ++ toString q.den

/-- One binary digit. -/
def writtenBit (b : Bool) : String := if b then "1" else "0"

/-- Pins as `0b...` in the order `CBA`. -/
def writtenPins (p : HallCode) : String :=
  "0b" ++ writtenBit (p.getLsbD 2) ++ writtenBit (p.getLsbD 1) ++ writtenBit (p.getLsbD 0)

/-- A mnemonic with the suffix `.T` when the grant is 0. -/
def withGrant (m : String) (g : Bool) : String := if g then m else m ++ ".T"

/-- One line of R88. -/
def Instr.written : Instr → String
  | .hedge x l => "HEDGE " ++ x.written ++ ", " ++ writtenBit l
  | .cwake => "CWAKE"
  | .cpoll p => "CPOLL " ++ writtenPins p
  | .rpms g e => withGrant "RPMS" g ++ " " ++ toString e
  | .pids m ms => "PIDS " ++ writtenRat m ++ ", " ++ toString ms
  | .dapp g => withGrant "DAPP" g
  | .spdc g e ms => withGrant "SPDC" g ++ " " ++ toString e ++ ", " ++ toString ms
  | .rtick => "RTICK"
  | .adcp a b => "ADCP " ++ toString a ++ ", " ++ toString b
  | .monc g => withGrant "MONC" g
  | .tset v => "TSET " ++ toString v
  | .eset => "ESET"
  | .eack => "EACK"
  | .sget g k => withGrant "SGET" g ++ " " ++ k.written
  | .sset g k r f => withGrant "SSET" g ++ " " ++ k.written ++ ", " ++ writtenRat r ++ ", " ++ writtenRat f
  | .sfld g w k v => withGrant "SFLD" g ++ " " ++ k.written ++ "." ++ w.written ++ ", " ++ writtenRat v
  | .evpop => "EVPOP"
  | .reset => "RESET"

end Sys2Proof
end

