-- ==== Sys2Proof/Tests/Slice0.lean ====
section
/-! SUPPORT. The model's own tests. Expected values are those of 95_test_vectors.md (the vector's name stands in each
docstring) under its parameter set T1, or worked out by hand from the rule named. The `witness_` theorems show that the
hypotheses of each statement of Certificates/Slice0/Obligations.lean can be met, clause by clause. -/

namespace Sys2Proof.Tests

open Sys2Proof.Machine Sys2Proof.Claims

-- One theorem at a time: the many kernel evaluations of this file would otherwise wait for each other in as many threads.
set_option Elab.async false

/-! ## The parameter set T1 and the reset state under it (95_test_vectors.md section 0) -/

/-- T1. -/
def T1 : Config.Params where
  period := 1000
  kickDuty := 50
  ticksPerSecond := 1000
  vref := 4
  adcMax := 4000
  gain := 10
  rsense := 1 / 10
  vbus := 24
  rbCap := 4
  evqCap := 2
  climitInit := 833
  phaseX := ⟨1, 0, 0⟩
  phaseY := ⟨0, 1, 0⟩
  phaseZ := ⟨0, 0, 1⟩

/-- The reset state under T1. -/
def s0 : State := State.initial T1

/-- What an operation leaves, seen through `f`; none where it stops. -/
def see {α : Type} (f : State → α) (i : Instr) (s : State) : Option α :=
  match exec i s with
  | .next t => some (f t)
  | .fault _ => none
  | .refused _ => none

/-- The same for one step. -/
def seeStep {α : Type} (f : State → α) (s : State) : Option α :=
  match step s with
  | .next t => some (f t)
  | .fault _ => none
  | .refused _ => none

theorem test_T1_admissible : T1.ok := by decide +kernel

/-- T1 gives `ADC_BITS = 12`. -/
theorem test_T1_adcBits : T1.adcBits = 12 := by decide +kernel

/-! ## WellFormed refuses ill-formed terms (R84) -/

theorem test_wellFormed_adcp_a : Instr.wellFormed T1 (.adcp 4001 0) = false := by decide +kernel
theorem test_wellFormed_adcp_b : Instr.wellFormed T1 (.adcp 0 4001) = false := by decide +kernel
theorem test_wellFormed_tset_high : Instr.wellFormed T1 (.tset 2147483648) = false := by decide +kernel
theorem test_wellFormed_tset_low : Instr.wellFormed T1 (.tset (-2147483649)) = false := by decide +kernel

/-- The bounds themselves are in. -/
theorem test_wellFormed_bounds :
    Instr.wellFormed T1 (.adcp 4000 0) = true ∧ Instr.wellFormed T1 (.tset 2147483647) = true ∧
      Instr.wellFormed T1 (.tset (-2147483648)) = true := by decide +kernel

/-! ## Words written out from R82 and R83 (95_test_vectors.md 2.1) -/

theorem test_decode_hall :
    decode ⟨0b00000010, 0, 0⟩ = .ok (.hedge .B false) ∧ decode ⟨0b00000101, 0, 0⟩ = .ok (.hedge .C true) ∧
      decode ⟨0b00001000, 0, 0⟩ = .ok .cwake ∧ decode ⟨0b00010111, 0, 0⟩ = .ok (.cpoll 0b111) ∧
      decode ⟨0b00000110, 0, 0⟩ = .error .reserved := by decide +kernel

theorem test_decode_rpm :
    decode ⟨0b00100000, 100, 0⟩ = .ok (.rpms false 100) ∧ decode ⟨0b00100001, 0, 0⟩ = .ok (.rpms true 0) := by
  decide +kernel

theorem test_decode_pid :
    decode ⟨0b00100010, -5, 10⟩ = .ok (.pids (-5) 10) ∧ decode ⟨0b00100100, 0, 0⟩ = .ok (.dapp false) ∧
      decode ⟨0b00100111, 100, -1⟩ = .ok (.spdc true 100 (-1)) ∧ decode ⟨0b00100011, 0, 0⟩ = .error .reserved := by
  decide +kernel

theorem test_decode_ramp :
    decode ⟨0b00110000, 0, 0⟩ = .ok .rtick ∧ decode ⟨0b01010000, -7, 0⟩ = .ok (.tset (-7)) := by decide +kernel

theorem test_decode_monitor :
    decode ⟨0b01000000, 1550, 1600⟩ = .ok (.adcp 1550 1600) ∧ decode ⟨0b01000010, 0, 0⟩ = .ok (.monc false) := by
  decide +kernel

theorem test_decode_surface :
    decode ⟨0b01010001, 0, 0⟩ = .ok .eset ∧ decode ⟨0b01010010, 0, 0⟩ = .ok .eack ∧
      decode ⟨0b01100111, 0, 0⟩ = .ok (.sget true .climit) ∧ decode ⟨0b01101000, 1, 2⟩ = .ok (.sset false .rpm 1 2) ∧
      decode ⟨0b01111011, 1200, 0⟩ = .ok (.sfld true .raw .climit 1200) ∧ decode ⟨0b10000000, 0, 0⟩ = .ok .evpop ∧
      decode ⟨0b11111111, 0, 0⟩ = .ok .reset ∧ decode ⟨0b11111110, 0, 0⟩ = .error .reserved := by decide +kernel

/-- The table of R88: the line and its word. -/
theorem test_written :
    ([.hedge .B true, .cwake, .cpoll 0b101, .rpms false 100, .pids 900 100, .spdc true 100 100, .monc false,
        .sget false .climit, .sset true .power (3 / 2) 1, .sfld true .raw .climit 833, .sfld false .filtered .pwm 0,
        .reset] : List Instr).map (fun i => (i.written, opWord i)) =
      [("HEDGE B, 1", 0x03), ("CWAKE", 0x08), ("CPOLL 0b101", 0x15), ("RPMS.T 100", 0x20), ("PIDS 900, 100", 0x22),
        ("SPDC 100, 100", 0x27), ("MONC.T", 0x42), ("SGET.T CLIMIT", 0x63), ("SSET POWER, 3/2, 1", 0x6D),
        ("SFLD CLIMIT.raw, 833", 0x7B), ("SFLD.T PWM.filtered, 0", 0x76), ("RESET", 0xFF)] := by decide +kernel

/-! ## The boundary -/

/-- Word 0x06: nothing changes, `ILLEGAL_OP` with the word (R218). -/
theorem test_reserved_word :
    seeStep id { s0 with env := [⟨0x06, 1, 2⟩] } = some { s0 with res := ⟨.illegal, [.illegalOp 0x06]⟩ } := by
  decide +kernel

/-- A sample above `ADCMAX` cannot be presented (R84). -/
theorem test_operand_refused : seeStep id { s0 with env := [⟨0x40, 4001, 0⟩] } = none := by decide +kernel

/-- The next command runs, and the one after it waits (R80). -/
theorem test_step_takes_one :
    seeStep (fun t => (t.target, t.env)) { s0 with env := [⟨0x50, 1000, 0⟩, ⟨0x30, 0, 0⟩] } =
      some (1000, [⟨0x30, 0, 0⟩]) := by decide +kernel

/-- The status word after reset: `settling` (bit 2) and `was_disabled` (bit 3) (R28). -/
theorem test_status_after_reset : s0.status = 0b00001100 := by decide +kernel

/-- The numbered view of the registers (R20). -/
theorem test_register_numbers :
    let s := { s0 with hall := 0b101, tcount := 1, target := 2, soft := 3, integ := 1 / 2, perr := 5, filtA := 6,
                       filtB := 7, pidOut := 8 }
    [s.x 0, s.x 1, s.x 2, s.x 3, s.x 4, s.x 5, s.x 6, s.x 7, s.x 8] = [5, 1, 2, 3, 1 / 2, 5, 6, 7, 8] := by
  decide +kernel

/-! ## One step per operation -/

/-- R101's example. -/
theorem test_hedge :
    see (fun t => (t.hall, t.tcount, t.hallPending)) (.hedge .B true) { s0 with hall := 0b001, tcount := 7 } =
      some (0b011, 8, true) := by decide +kernel

/-- H6: the counter saturates. -/
theorem test_hedge_saturates :
    see (fun t => (t.hall, t.tcount)) (.hedge .A true)
      { s0 with cfg := { T1 with ctrBits := 2 }, tcount := 3 } = some (0b001, 3) := by decide +kernel

/-- H4: one wake serves the collapsed edges. -/
theorem test_cwake :
    see (fun t => (t.hallPending, t.drvEn, t.wasDisabled, t.drvPhase)) .cwake
      { s0 with motorOn := true, hall := 0b010, hallPending := true } = some (false, true, false, .Y) := by
  decide +kernel

/-- H2: no permit. -/
theorem test_cwake_held : see id .cwake s0 = some { s0 with res := ⟨.held, []⟩ } := by decide +kernel

/-- H7: the poll drives Y and leaves the latch. -/
theorem test_cpoll :
    see (fun t => (t.drvPhase, t.hall, t.tcount)) (.cpoll 0b010) { s0 with motorOn := true, hall := 0b001 } =
      some (.Y, 0b001, 0) := by decide +kernel

/-- H3 and W4: not enabled, `HELD`. -/
theorem test_cpoll_not_enabled :
    see (fun t => (t.drvEn, t.drvPhase, t.hallPending, t.res)) (.cpoll 0b010)
      { s0 with motorOn := true, hall := 0b001, hallPending := true } =
      some (false, .COAST, true, ⟨.held, []⟩) := by decide +kernel

/-- Q5: not rounded. -/
theorem test_rpms :
    see (fun t => (t.tcount, t.store.rpm.raw, t.res)) (.rpms true 3) { s0 with tcount := 7 } =
      some (0, 35000 / 3, ⟨.rpm (35000 / 3), []⟩) := by decide +kernel

/-- Q11: the publish timed out. -/
theorem test_rpms_timeout :
    see (fun t => (t.tcount, t.store.rpm, t.res)) (.rpms false 100) { s0 with tcount := 18 } =
      some (0, ⟨0, 0⟩, ⟨.rpm 900, [.lockTimeout .rpm]⟩) := by decide +kernel

/-- V17: clamp before `floor`. -/
theorem test_pids_clamp :
    see (fun t => (t.integ, t.perr, t.pidOut)) (.pids 900 100) { s0 with soft := 1000, integ := -10050, perr := 100 } =
      some (-50, 100, 5) := by decide +kernel

/-- R141: other gains. A proportional gain of 1 alone, error 100. -/
theorem test_pids_gains :
    see (·.pidOut) (.pids 900 100)
      { s0 with cfg := { T1 with given := { kp := 1, ki := 0, kd := 0 } }, soft := 1000 } = some 100 := by decide +kernel

/-- V11: `b = -1` with `a != 0` is invalid, not a reset. -/
theorem test_pids_invalid :
    see (fun t => (t.integ, t.perr, t.pidErr, t.res.result)) (.pids 5 (-1))
      { s0 with soft := 1000, integ := 5, perr := 7 } = some (5, 7, true, .pid .err) := by decide +kernel

/-- A2: the driver gets its duty, the publish is skipped. -/
theorem test_dapp_timeout :
    see (fun t => (t.drvDuty, t.store.pwm, t.res.raised)) (.dapp false) { s0 with pidOut := 753 } =
      some (753, ⟨0, 0⟩, [.lockTimeout .pwm]) := by decide +kernel

/-- A3: hold last output. -/
theorem test_dapp_hold :
    see (fun t => (t.drvDuty, t.store)) (.dapp true) { s0 with pidOut := 753, pidErr := true, drvDuty := 40 } =
      some (40, s0.store) := by decide +kernel

/-- C1v, with V1's numbers. -/
theorem test_spdc :
    see (fun t => ((t.tcount, t.integ, t.perr, t.drvDuty), t.store.rpm.raw, t.store.pwm.raw, t.res.result))
      (.spdc true 100 100) { s0 with tcount := 18, soft := 1000 } =
      some ((0, 10000, 100, 753), 900, 753, .speed 900 (.duty 753)) := by decide +kernel

/-- C4v: both publishes time out, in order. -/
theorem test_spdc_timeout :
    see (fun t => (t.drvDuty, t.store, t.res.raised)) (.spdc false 100 100) { s0 with tcount := 18, soft := 1000 } =
      some (753, s0.store, [.lockTimeout .rpm, .lockTimeout .pwm]) := by decide +kernel

/-- K6, first tick: target forced, step 10. -/
theorem test_rtick_estop :
    see (fun t => (t.soft, t.target, t.motorOn)) .rtick
      { s0 with soft := 100, target := 1000, motorOn := true, estop := true } = some (90, 0, true) := by decide +kernel

/-- K5: at distance exactly 5 the snap is taken. -/
theorem test_rtick_snap :
    see (fun t => (t.soft, t.target, t.motorOn)) .rtick { s0 with soft := 5, target := 0, motorOn := true } =
      some (0, 0, false) := by decide +kernel

/-- R165's example. -/
theorem test_adcp :
    see (·.ring) (.adcp 5 5) { s0 with ring := [⟨1, 1⟩, ⟨2, 2⟩, ⟨3, 3⟩, ⟨4, 4⟩] } =
      some [⟨2, 2⟩, ⟨3, 3⟩, ⟨4, 4⟩, ⟨5, 5⟩] := by decide +kernel

/-- M2, first cycle: average, filter, publish, settling goes on. -/
theorem test_monc_settling :
    see (fun t => ((t.filtA, t.filtB, t.store.power), t.store.climit, t.settling, t.evq)) (.monc true)
      { s0 with ring := [⟨1800, 1900⟩, ⟨1700, 1800⟩] } =
      some ((875, 925, ⟨312 / 25, 1716 / 25⟩), ⟨833, 833⟩, true, [.power]) := by decide +kernel

/-- R169 and W8: no samples, so no change and `EMPTY`, without the grant too. -/
theorem test_monc_empty : see id (.monc false) s0 = some { s0 with res := ⟨.empty, []⟩ } := by decide +kernel

/-- M6: the trip does not need the grant. -/
theorem test_monc_trip :
    see (fun t => ((t.estop, t.settling, t.store.climit.raw), t.store.power, t.evq, t.res.raised)) (.monc false)
      { s0 with filtA := 1550, filtB := 1550, ring := [⟨1550, 1550⟩] } =
      some ((true, false, 900), ⟨0, 0⟩, [], [.overcurrent 900, .lockTimeout .power]) := by decide +kernel

/-- TSET under E-Stop. -/
theorem test_tset : see (·.target) (.tset 500) { s0 with estop := true } = some 500 := by decide +kernel

/-- T5s. -/
theorem test_eset : see id .eset s0 = some { s0 with estop := true } := by decide +kernel

/-- T5s. -/
theorem test_eack : see id .eack { s0 with estop := true } = some s0 := by decide +kernel

/-- T1s, second half: exactly what was set. -/
theorem test_sget :
    see (·.res.result) (.sget true .rpm) { s0 with store := { s0.store with rpm := ⟨1 / 3, 2 / 7⟩ } } =
      some (.entry ⟨1 / 3, 2 / 7⟩) := by decide +kernel

/-- T2s: a timeout leaves the entry. -/
theorem test_sset_timeout :
    see (fun t => (t.store, t.res)) (.sset false .power 9 9) s0 =
      some (s0.store, ⟨.timeout, [.lockTimeout .power]⟩) := by decide +kernel

/-- T1s, first half. -/
theorem test_sset : see (·.store.power) (.sset true .power (3 / 2) 1) s0 = some ⟨3 / 2, 1⟩ := by decide +kernel

/-- T3s: one field. -/
theorem test_sfld : see (·.store.climit) (.sfld true .raw .climit 1200) s0 = some ⟨1200, 833⟩ := by decide +kernel

/-- T6s. -/
theorem test_evpop :
    see (fun t => (t.evq, t.res.result)) .evpop { s0 with evq := [.power, .rpm] } = some ([.rpm], .key .power) := by
  decide +kernel

/-- T7s. -/
theorem test_reset :
    see id .reset { s0 with settling := false, filtA := 1550, evq := [.power, .power],
                            store := { s0.store with climit := ⟨900, 7⟩ } } = some s0 := by decide +kernel

/-- The host's view: the table's word, and the step that runs it from the reset state. -/
theorem test_decodeTableWord :
    decodeTableWord 8 0x30 = some .rtick ∧ decodeTableWord 8 0x31 = none ∧ decodeTableWord 16 0x30 = none := by
  decide +kernel

/-! ## Witnesses: the hypotheses of the statements can be met -/

/-- Half of one is no natural number. -/
theorem half_no_nat (n : Nat) : (1 / 2 : Rat) ≠ n := portNat_eq_none.mp (by decide +kernel) n

/-- Half of one is no integer. -/
theorem half_no_int (v : Int) : (1 / 2 : Rat) ≠ v := portInt_eq_none.mp (by decide +kernel) v

/-- Minus one is no natural number. -/
theorem minus_one_no_nat (n : Nat) : (-1 : Rat) ≠ n := portNat_eq_none.mp (by decide +kernel) n

theorem witness_DecodeOfEncodeIsTheOperation :
    Instr.wellFormed T1 (.adcp 4000 0) = true ∧ Instr.wellFormed T1 (.tset (-2147483648)) = true := by decide +kernel

theorem witness_AcceptedCommandIsTheEncodingOfItsMeaning :
    decode ⟨0x26, 100, -1⟩ = .ok (.spdc false 100 (-1)) ∧ (Instr.spdc false 100 (-1)).op.readsA = true ∧
      (Instr.spdc false 100 (-1)).op.readsB = true := by decide +kernel

theorem witness_StepRunsThePresentedOperation :
    { s0 with env := [⟨0x40, 4000, 0⟩] }.env = [⟨0x40, 4000, 0⟩] ∧ decode ⟨0x40, 4000, 0⟩ = .ok (.adcp 4000 0) ∧
      Instr.wellFormed s0.cfg (.adcp 4000 0) = true := by decide +kernel

theorem witness_StepWithNothingPresentedChangesNothing : s0.env = [] := by decide +kernel

theorem witness_ReservedWordsRaiseIllegalOp :
    { s0 with env := [⟨0x06, 1, 2⟩] }.env = [⟨0x06, 1, 2⟩] ∧ reservedWord 0x06 = true ∧ reservedWord 0xFE = true := by
  decide +kernel

/-- One value per port, at the ends of the ranges. -/
theorem witness_OperandsOutsideTheirTypeAreRefused :
    { s0 with env := [⟨0x20, 1 / 2, 0⟩] }.env = [⟨0x20, 1 / 2, 0⟩] ∧ (∀ n : Nat, (1 / 2 : Rat) ≠ n) ∧
      (∀ n : Nat, (-1 : Rat) ≠ n) ∧ (∀ v : Int, (1 / 2 : Rat) ≠ v) ∧
      (¬∃ n : Nat, (4001 : Rat) = n ∧ n ≤ s0.cfg.adcMax) ∧
      ¬∃ v : Int, (2147483648 : Rat) = v ∧ -(2 ^ (s0.cfg.rpmBits - 1) : Int) ≤ v ∧
        v < (2 ^ (s0.cfg.rpmBits - 1) : Int) := by
  refine ⟨rfl, half_no_nat, minus_one_no_nat, half_no_int, ?_, ?_⟩
  · rintro ⟨n, h1, h2⟩
    have h3 : n = 4001 := by exact_mod_cast h1.symm
    subst h3
    revert h2; decide
  · rintro ⟨v, h1, -, h3⟩
    have h4 : v = 2147483648 := by exact_mod_cast h1.symm
    subst h4
    revert h3; decide

theorem witness_AdcBitsIsTheLeastWidth : 0 < T1.adcMax ∧ T1.adcMax < 2 ^ 12 := by decide +kernel

/-- SGET is excepted by no clause. -/
theorem witness_EveryRegisterHasItsWriters :
    (∃ t, exec (.sget true .rpm) s0 = .next t) ∧
      ∀ o ∈ [Op.HEDGE, .RPMS, .SPDC, .TSET, .RTICK, .PIDS, .MONC, .ESET, .EACK, .CWAKE, .CPOLL, .DAPP, .ADCP, .EVPOP,
        .RESET], (Instr.sget true .rpm).op ≠ o := ⟨⟨_, rfl⟩, by decide⟩

theorem witness_EveryStoreCellHasItsWriters :
    (∃ t, exec .eset s0 = .next t) ∧ writesEntry (addrKey 0) .eset = false ∧ writesEntry (addrKey 7) (.dapp true) = false :=
  ⟨⟨_, rfl⟩, by decide, by decide⟩

theorem witness_HedgeWritesItsBitCountsAndGivesThePermit :
    (0 < 3 ∧ 0 ≠ Sensor.B.number) ∧ (2 < 3 ∧ 2 ≠ Sensor.B.number) := by decide

theorem witness_CwakeTakesThePermitAndCommutates :
    ({ s0 with hallPending := true, motorOn := true }.hallPending = true ∧
        { s0 with hallPending := true, motorOn := true }.motorOn = true) ∧
      ({ s0 with hallPending := true }.hallPending = true ∧ { s0 with hallPending := true }.motorOn = false) ∧
      s0.hallPending = false := by decide +kernel

theorem witness_CpollCommutatesOnThePins :
    ({ s0 with motorOn := true }.hallPending = false ∧ { s0 with motorOn := true }.motorOn = true) ∧
      (s0.hallPending = false ∧ s0.motorOn = false) ∧ { s0 with hallPending := true }.hallPending = true := by
  decide +kernel

/-- With two bits of counter: the last edge that still counts. -/
theorem witness_EveryEdgeIsCountedInOneSample :
    { s0 with cfg := { T1 with ctrBits := 2 }, tcount := 2 }.tcount + [(Sensor.A, true)].length < 2 ^ 2 ∧ 1 ≠ 0 := by
  decide +kernel

theorem witness_RpmFormula : 0 < 1 ∧ T1.given.transPerRev = 12 := by decide

/-- Q5: seven edges in three ticks. -/
theorem witness_RpmsSamplesClearsAndPublishes :
    (35000 / 3 : Rat) = 60 * 7 * s0.cfg.ticksPerSecond / (s0.cfg.given.transPerRev * 3) ∧ 3 ≠ 0 := by decide +kernel

/-- Each case at its bounds. -/
theorem witness_PidsSpecialCasesInOrder :
    (((0 : Rat) = 0 ∧ (-1 : Int) = -1) ∨ s0.soft = 0) ∧
      ({ s0 with soft := 1000 }.soft ≠ 0 ∧ ¬((0 : Rat) = 0 ∧ (0 : Int) = -1) ∧ ((0 : Rat) < 0 ∨ (0 : Int) ≤ 0)) ∧
      ({ s0 with soft := -50 }.soft ≠ 0 ∧ (0 : Rat) ≤ 1999 / 20 ∧ (1999 / 20 : Rat) < s0.cfg.given.rpmMinValid ∧
        (0 : Int) < 1) := by
  decide +kernel

/-- V13: the threshold itself. -/
theorem witness_PidsNormalCase :
    { s0 with soft := 130 }.soft ≠ 0 ∧ (0 : Rat) ≤ 100 ∧ s0.cfg.given.rpmMinValid ≤ 100 ∧ (0 : Int) < 1 ∧
      (30 : Rat) = (130 : Int) - 100 ∧ (30 : Rat) = s0.integ + 30 * (1 : Int) ∧
      (30 : Rat) = (30 - s0.perr) / (1 : Int) ∧
      (6423 / 2000 : Rat) = s0.cfg.given.kp * 30 + s0.cfg.given.ki * 30 + s0.cfg.given.kd * 30 ∧
      (6423 / 2000 : Rat) = (if (6423 / 2000 : Rat) < 0 then (s0.cfg.given.minFloor : Rat) else 6423 / 2000) ∧
      (6423 / 2000 : Rat) = (if (6423 / 2000 : Rat) > s0.cfg.period then (s0.cfg.period : Rat) else 6423 / 2000) := by
  decide +kernel

theorem witness_PidsHandsBackErrOrADuty : s0.cfg.ok := test_T1_admissible

theorem witness_DappAppliesOrHolds : s0.pidErr = false ∧ { s0 with pidErr := true }.pidErr = true := by decide +kernel

theorem witness_SpdcIsRpmsThenPidsThenDapp : 1 ≠ 0 ∧ 0 = 0 := by decide

/-- The four clauses, at the bounds: stopped, within one step exactly, one more than a step above and below. -/
theorem witness_RtickFiveSteps :
    ((0 : Int) = (if s0.estop = true then 0 else s0.target) ∧ (5 : Int) =
          (if s0.estop = true then s0.cfg.given.estopWindow else s0.cfg.given.rampWindow) / s0.cfg.given.rampTickrate ∧
        s0.cfg.given = {}) ∧
      (s0.motorOn = false ∧ s0.target ≤ 0) ∧
      (({ s0 with motorOn := true, soft := 5 }.motorOn = true ∨ 0 < s0.target) ∧ |(5 : Int) - 0| ≤ 5) ∧
      (({ s0 with motorOn := true, soft := -6 }.motorOn = true ∨ 0 < s0.target) ∧ 5 < |(-6 : Int) - 0| ∧ (-6 : Int) < 0) ∧
      (({ s0 with motorOn := true, soft := 6 }.motorOn = true ∨ 0 < s0.target) ∧ 5 < |(6 : Int) - 0| ∧ (0 : Int) < 6) := by
  decide +kernel

theorem witness_RtickNeverOvershoots :
    s0.cfg.ok ∧ ({ s0 with target := 1 }.motorOn = true ∨ 0 < { s0 with target := 1 }.target) ∧
      { s0 with target := 1 }.estop = false := by decide +kernel

theorem witness_RampReachesTheTargetAndStays :
    s0.cfg.ok ∧ { s0 with target := 12 }.estop = false ∧
      ({ s0 with target := 12 }.motorOn = true ∨ 0 < { s0 with target := 12 }.target) := by decide +kernel

/-- K12 and K5: three ticks for 23, one for 0; the clauses meet between 2 and 3. -/
theorem witness_EmergencyRampDownTakesTheStatedTicks :
    s0.cfg.ok ∧ { s0 with estop := true, motorOn := true, soft := 23 }.estop = true ∧
      { s0 with estop := true, motorOn := true, soft := 23 }.motorOn = true ∧
      (3 : Int) = max 1 ⌈((|(23 : Int)| : Int) : Rat) / s0.cfg.given.stepEstop⌉ ∧
      (1 : Int) = max 1 ⌈((|(0 : Int)| : Int) : Rat) / s0.cfg.given.stepEstop⌉ ∧ ((2 : Nat) : Int) < 3 ∧
      (3 : Int) ≤ (3 : Nat) := by decide +kernel

theorem witness_MotorDoesNotStartUnderEstop :
    s0.cfg.ok ∧ { s0 with target := 1, estop := true }.motorOn = false ∧ { s0 with target := 1, estop := true }.soft = 0 ∧
      0 < { s0 with target := 1, estop := true }.target ∧ { s0 with target := 1, estop := true }.estop = true := by
  decide +kernel

theorem witness_CurrentConversion :
    (0 < T1.vref ∧ 0 < T1.adcMax ∧ 0 < T1.gain ∧ 0 < T1.rsense) ∧
      ((0 : Rat) ≤ 0 ∧ (0 : Rat) ≤ T1.adcMax) ∧ (0 : Rat) ≤ 4000 ∧ (4000 : Rat) ≤ T1.adcMax := by decide +kernel

/-- A full buffer of one place. -/
theorem witness_PushesKeepTheNewestSamples :
    1 ≤ { s0 with cfg := { T1 with rbCap := 1 }, ring := [⟨1, 1⟩] }.cfg.rbCap ∧
      { s0 with cfg := { T1 with rbCap := 1 }, ring := [⟨1, 1⟩] }.ring.length ≤ 1 := by decide +kernel

theorem witness_MoncWithNoSamplesChangesNothing : s0.ring = [] := by decide +kernel

/-- The numbers of M7. -/
theorem witness_MoncCycle :
    let s := { s0 with ring := [⟨1300, 2000⟩, ⟨1400, 2000⟩, ⟨1500, 2000⟩, ⟨1600, 2000⟩] }
    s.ring ≠ [] ∧ (1450 : Rat) = (s.ring.map Sample.a).sum / s.ring.length ∧
      (2000 : Rat) = (s.ring.map Sample.b).sum / s.ring.length ∧
      (725 : Rat) = s.cfg.given.alpha * 1450 + (1 - s.cfg.given.alpha) * s.filtA ∧
      (1000 : Rat) = s.cfg.given.alpha * 2000 + (1 - s.cfg.given.alpha) * s.filtB ∧
      (550 : Rat) = 1000 * (amps s.cfg 1450 + amps s.cfg 2000) ∧
      (833 : Rat) = s.store.climit.raw := by decide +kernel

/-- M1: 900 against 833. -/
theorem witness_OvercurrentAlwaysTrips :
    { s0 with ring := [⟨1550, 1550⟩] }.ring ≠ [] ∧
      s0.store.climit.raw < totalMilliamps s0.cfg [⟨1550, 1550⟩] := by decide +kernel

/-- M4 (b): the settling phase is over and there are samples for both cycles. -/
theorem witness_LimitIsThePreviousCyclesCurrent :
    { s0 with ring := [⟨1900, 1899⟩], settling := false }.ring ≠ [] ∧
      { s0 with ring := [⟨1900, 1899⟩], settling := false }.settling = false ∧
      (∃ t, exec (.monc true) { s0 with ring := [⟨1900, 1899⟩], settling := false } = .next t) ∧
      ([⟨1950, 1950⟩] : List Sample) ≠ [] := ⟨by decide, rfl, exec_next _ _, by decide⟩

theorem witness_EstopAndSettlingAreSticky :
    (∃ t, exec .eack { s0 with estop := true } = .next t ∧ { s0 with estop := true }.estop = true ∧ t.estop = false) ∧
      ∃ t, exec .reset { s0 with settling := false } = .next t ∧ { s0 with settling := false }.settling = false ∧
        t.settling = true := ⟨⟨_, rfl, rfl, rfl⟩, _, rfl, rfl, rfl⟩

theorem witness_OnlyRtickLooksAtEstop : (Instr.monc true).op ≠ .RTICK := by decide

/-- The first and the last entry. -/
theorem witness_SgetReadsOnePair :
    ((0 : Fin 8).val = 2 * Key.rpm.number ∧ (1 : Fin 8).val = 2 * Key.rpm.number + 1) ∧
      (6 : Fin 8).val = 2 * Key.climit.number ∧ (7 : Fin 8).val = 2 * Key.climit.number + 1 := by decide

theorem witness_StoreRoundTrip :
    ∀ i ∈ ([.rpms true 100, .dapp true, .sset true .climit 1 1, .sfld true .raw .rpm 0, .evpop] : List Instr),
      writesEntry .power i = false := by decide +kernel

theorem witness_EvpopTakesTheOldest :
    s0.evq = [] ∧ { s0 with evq := [.power] }.evq = Key.power :: [] := by decide +kernel

theorem witness_OnlyMoncNotifies :
    (∃ t, exec (.monc true) s0 = .next t) ∧ ((∃ t, exec .evpop s0 = .next t) ∧ Instr.evpop.op ≠ .MONC) :=
  ⟨exec_next _ _, exec_next _ _, by decide⟩

/-- The zero ticks, a negative RPM, and M1's current. -/
theorem witness_OperationsRaiseOnlyTheirCodes :
    (∃ t, exec (.rpms true 0) s0 = .next t ∧ Exn.rpmZeroElapsed ∈ t.res.raised) ∧
      (∃ t, exec (.pids (-1) 1) { s0 with soft := 1 } = .next t ∧ Exn.pidInvalidInput ∈ t.res.raised) ∧
      ∃ t, exec (.monc true) { s0 with ring := [⟨1550, 1550⟩] } = .next t ∧ Exn.overcurrent 900 ∈ t.res.raised :=
  ⟨⟨_, rfl, by decide⟩, ⟨_, rfl, by decide +kernel⟩, _, rfl, by decide +kernel⟩

/-- SPDC without the grant raises two. -/
theorem witness_OnlyMoncAndSpdcRaiseTwo :
    ∃ t, exec (.spdc false 1 1) s0 = .next t ∧ t.res.raised.length = 2 := ⟨_, rfl, by decide +kernel⟩

theorem witness_PrincipalsWriteOnlyTheirState :
    (Principal.mayPresent .consumers .evpop = true ∧ ∃ t, exec .evpop s0 = .next t) ∧
      (Principal.mayPresent (.hallSource .C) (.hedge .C true) = true ∧ ∃ t, exec (.hedge .C true) s0 = .next t) ∧
      Principal.mayPresent .adcSource (.adcp 4000 0) = true ∧ ∃ t, exec (.adcp 4000 0) s0 = .next t :=
  ⟨⟨by decide, exec_next _ _⟩, ⟨by decide, exec_next _ _⟩, by decide, exec_next _ _⟩

/-- The reset state under T1 meets the invariant, and a command is waiting. -/
theorem witness_EveryStepKeepsTheInvariant :
    State.Inv { s0 with env := [⟨0x40, 4000, 0⟩] } ∧
      ∃ t, step { s0 with env := [⟨0x40, 4000, 0⟩] } = .next t := by
  constructor
  · exact
      { cfgOk := test_T1_admissible
        tcountFits := Nat.two_pow_pos _
        targetFits := setpointFits_zero _
        softFits := setpointFits_zero _
        pidOutInRange := by decide +kernel
        drvDutyInRange := by decide +kernel
        enabledUnlessDisabled := rfl
        coastsWhenDisabled := by decide +kernel
        stoppedHasZeroSoft := fun _ => rfl
        ringBounded := Nat.zero_le _
        evqBounded := Nat.zero_le _
        samplesFit := fun _ none => nomatch none }
  · have h : (seeStep id { s0 with env := [⟨0x40, 4000, 0⟩] }).isSome = true := by decide +kernel
    unfold seeStep at h
    revert h
    cases step { s0 with env := [⟨0x40, 4000, 0⟩] } with
    | next t => exact fun _ => ⟨t, rfl⟩
    | fault _ => simp
    | refused _ => simp

theorem witness_ConfigurationHasItsDefaults : ∃ t, exec (.sget true .rpm) s0 = .next t := ⟨_, rfl⟩

theorem witness_PresentableRunsNeverStop :
    { s0 with env := [⟨0x06, 1 / 2, 0⟩, ⟨0x40, 4000, 0⟩, ⟨0x50, -2147483648, 0⟩] }.envPresentable = true := by
  decide +kernel

end Sys2Proof.Tests
end

section
/-! The sample ring and the event queue under every operation (20_memory.md R62 to R67, 45_estop_store_events.md R197,
R198). -/

namespace Sys2Proof.Machine

/-! ### The operations that answer by cases -/

/-- RPMS that measured an RPM hands it back (R122). -/
theorem exec_rpms_of_sampleRpm {g : Bool} {e : Nat} {q : Rat} {s t : State}
    (hs : s.openRes.sampleRpm g e = (some q, t)) : exec (.rpms g e) s = .next (t.answer (.rpm q)) := by
  simp only [exec, execRpms, hs]

/-- SPDC that measured an RPM runs PIDS on it, then DAPP (R140). -/
theorem exec_spdc_of_sampleRpm {g : Bool} {e : Nat} {ms : Int} {q : Rat} {s t : State}
    (hs : s.openRes.sampleRpm g e = (some q, t)) :
    exec (.spdc g e ms) s =
      .next (((t.runPid q ms).2.applyDuty g).answer (.speed q (t.runPid q ms).1)) := by
  simp only [exec, execSpdc, hs]

/-- MONC with no samples (R169). -/
theorem exec_monc_of_ring_nil (g : Bool) {s : State} (hr : s.ring = []) :
    exec (.monc g) s = .next (s.openRes.answer .empty) := by
  simp only [exec, execMonc, hr]

/-- MONC with samples drains the whole ring (R167, R168). -/
theorem exec_monc_of_ring_ne_nil (g : Bool) {s : State} (hr : s.ring ≠ []) :
    exec (.monc g) s = .next (s.openRes.monitorCycle g s.ring) := by
  obtain ⟨x, r, hx⟩ := List.exists_cons_of_ne_nil hr
  simp only [exec, execMonc, hx]

/-! ### What the shared operations leave of the queue -/

namespace State

@[simp] theorem publishAny_evq (s : State) (g : Bool) (k : Key) (v : Rat) : (s.publishAny g k v).evq = s.evq := by
  rw [publishAny_eq]

@[simp] theorem commutate_evq (s : State) (h : HallCode) : (s.commutate h).evq = s.evq := by
  rw [commutate_eq]

@[simp] theorem runPid_evq (s : State) (m : Rat) (e : Int) : (s.runPid m e).2.evq = s.evq := by
  rw [runPid_frame]

@[simp] theorem applyDuty_evq (s : State) (g : Bool) : (s.applyDuty g).evq = s.evq := by
  rw [applyDuty_frame]

@[simp] theorem rampMove_evq (s : State) (step : Int) : (s.rampMove step).evq = s.evq := by
  obtain ⟨-, h⟩ | ⟨-, -, h⟩ | ⟨-, -, h⟩ := s.rampMove_cases step <;> rw [h]

/-- The monitor's cycle notifies under the grant, and only by its publish (R176, R198). -/
@[simp] theorem monitorCycle_evq (s : State) (g : Bool) (r : List Sample) :
    (s.monitorCycle g r).evq = if g then evPush s.cfg.evqCap s.evq .power else s.evq := by
  simp only [monitorCycle, publishPower_eq, clobberLimit_eq, compareAndTrip_eq, filterAll]

end State

/-! ### The queue after an operation -/

/-- EVPOP of an empty queue (R67). -/
theorem exec_evpop_of_evq_nil {s : State} (hq : s.evq = []) :
    exec .evpop s = .next { s with res := ⟨.noEvent, []⟩ } := by
  simp only [exec, execEvpop, hq, evPop_nil]
  simp [State.openRes, State.answer, ← hq]

/-- EVPOP of a queue with a first key (R67). -/
theorem exec_evpop_of_evq_cons {s : State} {k : Key} {q : List Key} (hq : s.evq = k :: q) :
    exec .evpop s = .next { s with evq := q, res := ⟨.key k, []⟩ } := by
  simp only [exec, execEvpop, hq, evPop_cons]
  rfl

/-- The queue belongs to MONC, EVPOP and RESET: every other operation leaves it as it is (R65, R198). -/
theorem exec_evq_unchanged {i : Instr} {s t : State} (h : exec i s = .next t) (hm : i.op ≠ .MONC)
    (hp : i.op ≠ .EVPOP) (hr : i.op ≠ .RESET) : t.evq = s.evq := by
  cases i with
  | hedge x l => cases h; rfl
  | cwake => cases h; split <;> simp
  | cpoll p => cases h; split <;> simp
  | rpms g e =>
    by_cases he : e = 0
    · subst he; cases h; rfl
    · rw [exec_rpms_of_sampleRpm (State.sampleRpm_pos _ g he)] at h; cases h; simp
  | pids m e => cases h; simp
  | dapp g => cases h; simp
  | spdc g e ms =>
    by_cases he : e = 0
    · subst he; cases h; rfl
    · rw [exec_spdc_of_sampleRpm (State.sampleRpm_pos _ g he)] at h; cases h; simp
  | rtick => cases h; split <;> simp
  | adcp a b => cases h; rfl
  | monc g => exact absurd rfl hm
  | tset v => cases h; rfl
  | eset => cases h; rfl
  | eack => cases h; rfl
  | sget g k => cases g <;> cases h <;> rfl
  | sset g k r f => cases g <;> cases h <;> rfl
  | sfld g w k v => cases g <;> cases h <;> rfl
  | evpop => exact absurd rfl hp
  | reset => exact absurd rfl hr

/-- EVPOP leaves the queue without its first key (R67). -/
theorem exec_evpop_evq {s t : State} (h : exec .evpop s = .next t) : t.evq = s.evq.drop 1 := by
  cases h
  exact evPop_snd s.evq

/-- RESET empties the queue (R240). -/
theorem exec_reset_evq {s t : State} (h : exec .reset s = .next t) : t.evq = [] := by
  cases h; rfl

/-- An operation other than MONC only takes keys from the front of the queue (R198). -/
theorem exec_evq_suffix {i : Instr} {s t : State} (h : exec i s = .next t) (hm : i.op ≠ .MONC) :
    t.evq <:+ s.evq := by
  cases i
  case monc => exact absurd rfl hm
  case evpop =>
    rw [exec_evpop_evq h]
    exact List.drop_suffix 1 s.evq
  case reset =>
    rw [exec_reset_evq h]
    exact List.nil_suffix
  all_goals rw [exec_evq_unchanged h hm nofun nofun]

/-- MONC appends POWER when it has samples, the grant and room (R176, R198). -/
theorem exec_monc_evq {g : Bool} {s t : State} (h : exec (.monc g) s = .next t) :
    t.evq = if g = true ∧ s.ring ≠ [] ∧ s.evq.length < s.cfg.evqCap then s.evq ++ [.power] else s.evq := by
  by_cases hr : s.ring = []
  · rw [exec_monc_of_ring_nil g hr] at h
    cases h
    simp [hr]
  · rw [exec_monc_of_ring_ne_nil g hr] at h
    cases h
    obtain ⟨room, push⟩ | ⟨full, push⟩ := evPush_cases s.cfg.evqCap s.evq .power
    · cases g <;> simp [hr, push, room]
    · simp [push, Nat.not_lt.mpr full]

end Sys2Proof.Machine

namespace Sys2Proof.Proofs

open Sys2Proof.Machine

/-- Settles O47: MONC's clause is `exec_monc_evq`, every other operation's `exec_evq_suffix`. -/
theorem onlyMoncNotifies : Obligations.OnlyMoncNotifies := by
  intro i s t h
  refine ⟨exec_evq_suffix h, fun g hi => ?_⟩
  subst hi
  exact exec_monc_evq h

/-- Settles O33: ADCP is `ringPush`, and dropping one pair is the tail. -/
theorem adcpPushesThePair : Obligations.AdcpPushesThePair := by
  intro a b s
  simp only [exec, execAdcp, ringPush, List.drop_one, State.openRes]

/-- Settles O46, by the two shapes of the queue. -/
theorem evpopTakesTheOldest : Obligations.EvpopTakesTheOldest :=
  fun _ => ⟨exec_evpop_of_evq_nil, fun _ _ => exec_evpop_of_evq_cons⟩

end Sys2Proof.Proofs
end

section
/-! Hall capture and the commutation task (40_hall_commutation.md R100 to R103). -/

namespace Sys2Proof.Machine

/-! ### One bit of the Hall code -/

/-- A sensor's number is a bit of the code (R21, R83). -/
theorem sensor_number_lt (x : Sensor) : x.number < 3 := by
  cases x <;> decide

/-- The mask of a sensor holds that sensor's bit and no other. -/
theorem sensor_mask_getLsbD (x : Sensor) (j : Nat) : (1#3 <<< x.number).getLsbD j = decide (x.number = j) := by
  have inCode := sensor_number_lt x
  rw [← BitVec.twoPow_eq, BitVec.getLsbD_twoPow, decide_eq_true inCode, Bool.true_and]

/-- A write of one bit of the code: the sensor's bit has the level, the others are as they were (R101). -/
theorem setHallBit_getLsbD (h : HallCode) (x : Sensor) (l : Bool) {j : Nat} (hw : j < 3) :
    (setHallBit h x l).getLsbD j = bif decide (x.number = j) then l else h.getLsbD j := by
  have mask := sensor_mask_getLsbD x j
  cases l
  · have levelCleared : setHallBit h x false = h &&& ~~~(1#3 <<< x.number) := rfl
    rw [levelCleared, BitVec.getLsbD_and, BitVec.getLsbD_not, mask]
    cases decide (x.number = j) <;> simp [hw]
  · have levelSet : setHallBit h x true = h ||| 1#3 <<< x.number := rfl
    rw [levelSet, BitVec.getLsbD_or, mask]
    cases decide (x.number = j) <;> simp

/-- The sensor's bit reads back the level written. -/
@[simp] theorem setHallBit_getLsbD_same (h : HallCode) (x : Sensor) (l : Bool) :
    (setHallBit h x l).getLsbD x.number = l := by
  rw [setHallBit_getLsbD h x l (sensor_number_lt x), decide_eq_true rfl, cond_true]

/-- A write of one bit leaves the other two. -/
theorem setHallBit_getLsbD_ne (h : HallCode) {x : Sensor} (l : Bool) {j : Nat} (hw : j < 3) (hj : j ≠ x.number) :
    (setHallBit h x l).getLsbD j = h.getLsbD j := by
  rw [setHallBit_getLsbD h x l hw, decide_eq_false hj.symm, cond_false]

/-! ### HEDGE and CWAKE -/

/-- HEDGE sets the sensor's bit, counts the edge and gives the permit (R101). -/
theorem exec_hedge (x : Sensor) (l : Bool) (s : State) :
    exec (.hedge x l) s = .next
      { s.openRes with hall := setHallBit s.hall x l, tcount := countEdge s.cfg s.tcount, hallPending := true } := rfl

/-- CWAKE with a permit takes it and commutates on the captured code (R102). -/
theorem exec_cwake_of_permit {s : State} (hp : s.hallPending = true) :
    exec .cwake s = .next ({ s.openRes with hallPending := false }.commutate s.hall) := by
  simp only [exec, execCwake, if_pos hp]

/-- CWAKE without a permit is `HELD` (R103). -/
theorem exec_cwake_of_no_permit {s : State} (hp : s.hallPending = false) :
    exec .cwake s = .next (s.openRes.answer .held) := by
  simp only [exec, execCwake, hp, Bool.false_eq_true, if_false]

end Sys2Proof.Machine

namespace Sys2Proof.Proofs

open Sys2Proof.Machine

/-- Settles O14: the new code is `setHallBit`, whose bits `setHallBit_getLsbD_same` and `setHallBit_getLsbD_ne` give. -/
theorem hedgeWritesItsBitCountsAndGivesThePermit : Obligations.HedgeWritesItsBitCountsAndGivesThePermit := by
  intro x l s
  refine ⟨setHallBit s.hall x l, ?_, setHallBit_getLsbD_same s.hall x l, ?_⟩
  · exact exec_hedge x l s
  · intro j hw hj
    exact setHallBit_getLsbD_ne s.hall l hw hj

/-- Settles O15, by the permit and then the motor: `commutate` runs on the state with the permit taken. -/
theorem cwakeTakesThePermitAndCommutates : Obligations.CwakeTakesThePermitAndCommutates := by
  intro s
  refine ⟨fun hp hm => ?permitOn, fun hp hm => ?permitOff, fun hp => ?noPermit⟩
  case permitOn =>
    rw [exec_cwake_of_permit hp]
    exact congrArg Host.Outcome.next (State.commutate_on s.hall hm)
  case permitOff =>
    rw [exec_cwake_of_permit hp]
    exact congrArg Host.Outcome.next (State.commutate_off s.hall hm)
  case noPermit => exact exec_cwake_of_no_permit hp

/-- Settles O13: eight closed values of `decodePosition`, one per row of R100. -/
theorem positionDecoderTable : Obligations.PositionDecoderTable := by
  unfold Obligations.PositionDecoderTable
  decide

end Sys2Proof.Proofs
end

section
/-! The RPM estimator (41_rpm_estimator.md R121, R122). -/

namespace Sys2Proof.Machine

/-! ### The formula -/

/-- The formula as one quotient (R121). -/
theorem rpmOf_eq_div (c : Config.Params) (n e : Nat) :
    rpmOf c n e = 60 * n * c.ticksPerSecond / (c.given.transPerRev * e) := by
  unfold rpmOf
  rw [div_mul_eq_mul_div, div_mul_div_comm, mul_comm (n : Rat) 60]

/-- With twelve transitions per revolution the factor 60 reduces to 5 (R121). -/
theorem rpmOf_of_transPerRev_eq_twelve {c : Config.Params} (n e : Nat) (h12 : c.given.transPerRev = 12) :
    rpmOf c n e = 5 * n * c.ticksPerSecond / e := by
  rw [rpmOf_eq_div, h12]
  calc (60 * n * c.ticksPerSecond : Rat) / ((12 : Nat) * e)
      = 12 * (5 * n * c.ticksPerSecond) / (12 * e) := by push_cast; ring
    _ = 5 * n * c.ticksPerSecond / e := mul_div_mul_left _ _ (by norm_num)

/-- An RPM is never negative: every count in the formula is a natural number (R121). -/
theorem rpmOf_nonneg (c : Config.Params) (n e : Nat) : 0 ≤ rpmOf c n e := by
  unfold rpmOf
  positivity

/-! ### RPMS -/

/-- RPMS with zero elapsed ticks skips, whatever the grant (R122, R217). -/
theorem exec_rpms_zero (g : Bool) (s : State) :
    exec (.rpms g 0) s = .next ((s.openRes.raise .rpmZeroElapsed).answer .skip) := rfl

/-- RPMS with elapsed ticks takes the counter, publishes the RPM under the grant and hands it back (R122). -/
theorem exec_rpms_pos (g : Bool) {e : Nat} (he : e ≠ 0) (s : State) :
    exec (.rpms g e) s =
      .next (({ s.openRes with tcount := 0 }.publishAny g .rpm (rpmOf s.cfg s.tcount e)).answer
        (.rpm (rpmOf s.cfg s.tcount e))) :=
  exec_rpms_of_sampleRpm (s.openRes.sampleRpm_pos g he)

end Sys2Proof.Machine

namespace Sys2Proof.Proofs

open Sys2Proof.Machine

/-- Settles O20, by the elapsed ticks and then the grant: the `q` of R122 is `rpmOf` as one quotient, and the publish
either writes the entry or times out. -/
theorem rpmsSamplesClearsAndPublishes : Obligations.RpmsSamplesClearsAndPublishes := by
  intro e s q hq
  rw [← rpmOf_eq_div] at hq
  subst hq
  refine ⟨fun he => ?granted, fun he => ?timeout, fun g => ?zeroElapsed⟩
  case granted =>
    rw [exec_rpms_pos true he, State.publishAny_granted]
    rfl
  case timeout =>
    rw [exec_rpms_pos false he, State.publishAny_timeout]
    rfl
  case zeroElapsed => exact exec_rpms_zero g s

/-- Settles O19: the first form is the definition, the second `rpmOf_of_transPerRev_eq_twelve`, the sign
`rpmOf_nonneg`. -/
theorem rpmFormula : Obligations.RpmFormula :=
  fun c n e _ => ⟨rfl, rpmOf_of_transPerRev_eq_twelve n e, rpmOf_nonneg c n e⟩

end Sys2Proof.Proofs
end

section
/-! The PID speed controller: the special cases of PIDS, and DAPP (42_pid_controller.md R130 to R134, R139). -/

namespace Sys2Proof.Machine

/-! ### PIDS -/

/-- PIDS hands back the duty or `ERR` of the case that its body takes (R130). -/
theorem exec_pids_of_runPid {m : Rat} {e : Int} {r : PidResult} {s t : State}
    (hr : s.openRes.runPid m e = (r, t)) : exec (.pids m e) s = .next (t.answer (.pid r)) := by
  simp only [exec, execPids, hr]

/-- The reset signal and a zero setpoint both clear the controller's memory (R131, R132). -/
theorem State.runPid_resetSignal_or_zeroSoft {s : State} {m : Rat} {e : Int}
    (h : (m = 0 ∧ e = -1) ∨ s.soft = 0) : s.runPid m e = s.pidClear := by
  obtain ⟨rfl, rfl⟩ | stopped := h
  · exact s.runPid_resetSignal
  · exact s.runPid_zeroSoft m e stopped

/-! ### DAPP -/

/-- DAPP with a valid duty hands it to the driver and publishes it under the grant (R139). -/
theorem exec_dapp_of_valid (g : Bool) {s : State} (hv : s.pidErr = false) :
    exec (.dapp g) s = .next ({ s.openRes with drvDuty := s.pidOut }.publishAny g .pwm s.pidOut) :=
  congrArg Host.Outcome.next (s.openRes.applyDuty_apply g hv)

/-- DAPP after an invalid input holds the last output, whatever the grant (R139). -/
theorem exec_dapp_of_invalid (g : Bool) {s : State} (hi : s.pidErr = true) : exec (.dapp g) s = .next s.openRes :=
  congrArg Host.Outcome.next (s.openRes.applyDuty_hold g hi)

end Sys2Proof.Machine

namespace Sys2Proof.Proofs

open Sys2Proof.Machine

/-- Settles O21, by the cases of R130 in their order: a measurement that is not negative and a positive time exclude
the reset signal and the invalid input, so the kick needs no further premise. -/
theorem pidsSpecialCasesInOrder : Obligations.PidsSpecialCasesInOrder := by
  intro m e s
  refine ⟨fun clears => ?clear, fun running notReset bad => ?invalid, fun running hm hlow he => ?kick⟩
  case clear => exact exec_pids_of_runPid (State.runPid_resetSignal_or_zeroSoft clears)
  case invalid => exact exec_pids_of_runPid (s.openRes.runPid_invalid notReset running bad)
  case kick => exact exec_pids_of_runPid (s.openRes.runPid_kick running hm he hlow)

/-- Settles O24, by `pid_err` and then the grant: the publish either writes the entry or times out, and the driver has
its duty in both. -/
theorem dappAppliesOrHolds : Obligations.DappAppliesOrHolds := by
  intro s
  refine ⟨fun hv => ?granted, fun hv => ?timeout, fun hi g => ?hold⟩
  case granted =>
    rw [exec_dapp_of_valid true hv, State.publishAny_granted]
    rfl
  case timeout =>
    rw [exec_dapp_of_valid false hv, State.publishAny_timeout]
    rfl
  case hold => exact exec_dapp_of_invalid g hi

end Sys2Proof.Proofs
end

section
/-! The soft ramp: TSET and the five steps of RTICK (43_soft_ramp.md R150 to R154). -/

namespace Sys2Proof.Machine

/-! ### The step and the target of a tick -/

/-- Each step is its window divided by the tick rate (R151). -/
theorem State.rampStep_eq_div (s : State) :
    s.rampStep =
      (if s.estop = true then s.cfg.given.estopWindow else s.cfg.given.rampWindow) / s.cfg.given.rampTickrate := by
  unfold State.rampStep
  split <;> rfl

/-- The steps with DOC0's parameters (R151). -/
theorem State.rampStep_of_default {s : State} (hd : s.cfg.given = {}) :
    s.rampStep = if s.estop = true then 10 else 5 := by
  simp only [State.rampStep, hd, Config.Given.stepEstop_default, Config.Given.stepNormal_default]

/-! ### Steps 4 and 5 -/

/-- The distance of exactly one step is within it, and reaching 0 turns the motor off (R152 step 4, R153). -/
theorem State.rampMove_of_within {s : State} {step : Int} (hw : |s.soft - s.target| ≤ step) :
    s.rampMove step = { s with soft := s.target, motorOn := if s.target = 0 then false else s.motorOn } :=
  if_pos (withinStep_iff.mpr hw)

/-- Farther than one step below the target (R152 step 5). -/
theorem State.rampMove_of_below {s : State} {step : Int} (hf : step < |s.soft - s.target|)
    (hb : s.soft < s.target) : s.rampMove step = { s with soft := s.soft + step } := by
  unfold State.rampMove
  rw [if_neg (mt withinStep_iff.mp (not_le.mpr hf)), if_pos hb]

/-- Farther than one step above the target (R152 step 5). -/
theorem State.rampMove_of_above {s : State} {step : Int} (hf : step < |s.soft - s.target|)
    (ha : s.target < s.soft) : s.rampMove step = { s with soft := s.soft - step } := by
  unfold State.rampMove
  rw [if_neg (mt withinStep_iff.mp (not_le.mpr hf)), if_neg (not_lt.mpr ha.le)]

/-! ### TSET and RTICK -/

/-- TSET does not look at the E-Stop flag, the setpoint or the motor (R150). -/
theorem exec_tset (v : Int) (s : State) : exec (.tset v) s = .next { s.openRes with target := v } := rfl

/-- Step 1: a stopped motor without a positive target stays as it is (R152). -/
theorem exec_rtick_of_stopped {s : State} (hm : s.motorOn = false) (ht : s.target ≤ 0) :
    exec .rtick s = .next s.openRes :=
  congrArg Host.Outcome.next (if_pos (tickStops_iff.mpr ⟨hm, ht⟩))

/-- Steps 2 and 3: otherwise the motor is on, the target is the tick's, and the setpoint moves (R152). -/
theorem exec_rtick_of_running {s : State} (hr : s.motorOn = true ∨ 0 < s.target) :
    exec .rtick s =
      .next ({ s.openRes with motorOn := true, target := s.rampTarget }.rampMove s.rampStep) := by
  have goesOn : ¬ tickStops s.motorOn s.target = true := by
    rw [tickStops_iff]
    rintro ⟨off, notPositive⟩
    obtain on | positive := hr
    · exact Bool.false_ne_true (off.symm.trans on)
    · exact notPositive.not_gt positive
  exact congrArg Host.Outcome.next (if_neg goesOn)

end Sys2Proof.Machine

namespace Sys2Proof.Proofs

open Sys2Proof.Machine

/-- Settles O26: `exec_tset`, whose state with the result port emptied is the one stated. -/
theorem tsetWritesTheTarget : Obligations.TsetWritesTheTarget :=
  fun v s => exec_tset v s

/-- Settles O27: the `t` and `step` of R152 are `rampTarget` and `rampStep`; a tick stops at step 1
(`exec_rtick_of_stopped`) or runs (`exec_rtick_of_running`) and then makes one of the three moves. -/
theorem rtickFiveSteps : Obligations.RtickFiveSteps := by
  intro s t step ht hstep
  rw [← State.rampStep_eq_div] at hstep
  have ht : t = s.rampTarget := ht
  subst hstep ht
  refine ⟨State.rampStep_of_default, exec_rtick_of_stopped, fun hr hw => ?snap, fun hr hf hb => ?up,
    fun hr hf ha => ?down⟩
  all_goals rw [exec_rtick_of_running hr]
  case snap => exact congrArg Host.Outcome.next (State.rampMove_of_within hw)
  case up => exact congrArg Host.Outcome.next (State.rampMove_of_below hf hb)
  case down => exact congrArg Host.Outcome.next (State.rampMove_of_above hf ha)

end Sys2Proof.Proofs
end

section
/-! The current conversion (44_current_monitor.md R166). -/

namespace Sys2Proof.Machine

/-- A magnitude (R166), whatever the parameters. -/
theorem amps_nonneg (c : Config.Params) (x : Rat) : 0 ≤ amps c x := abs_nonneg _

section
variable {c : Config.Params} (hv : 0 < c.vref) (hg : 0 < c.gain) (hr : 0 < c.rsense)

include hv hg hr

/-- The current that R166 gives for the ends of the scale is positive. -/
theorem fullScaleAmps_pos : 0 < c.vref / (2 * c.gain * c.rsense) := by positivity

/-- The conversion scales the current at the ends of the scale by the distance from half scale, half scale being the
unit (R166). -/
theorem amps_eq_mul_abs (x : Rat) :
    amps c x = c.vref / (2 * c.gain * c.rsense) * |1 - x / (c.adcMax / 2)| := by
  calc amps c x
    _ = |c.vref / (2 * c.gain * c.rsense) * (1 - x / (c.adcMax / 2))| := by
        unfold amps
        congr 1
        field_simp
    _ = c.vref / (2 * c.gain * c.rsense) * |1 - x / (c.adcMax / 2)| := by
        rw [abs_mul, abs_of_pos (fullScaleAmps_pos hv hg hr)]

/-- The current at the lower end of the scale (R166). -/
theorem amps_zero : amps c 0 = c.vref / (2 * c.gain * c.rsense) := by
  rw [amps_eq_mul_abs hv hg hr, zero_div, sub_zero, abs_one, mul_one]

variable (hm : 0 < c.adcMax)
include hm

/-- The current is 0 exactly at half scale (R166). -/
theorem amps_eq_zero_iff {x : Rat} : amps c x = 0 ↔ x = (c.adcMax : Rat) / 2 := by
  have half : (c.adcMax : Rat) / 2 ≠ 0 := by positivity
  rw [amps_eq_mul_abs hv hg hr, mul_eq_zero_iff_left (fullScaleAmps_pos hv hg hr).ne', abs_eq_zero, sub_eq_zero,
    eq_comm, div_eq_one_iff_eq half]

/-- The current at the upper end of the scale (R166). -/
theorem amps_adcMax : amps c c.adcMax = c.vref / (2 * c.gain * c.rsense) := by
  have twice : (c.adcMax : Rat) / (c.adcMax / 2) = 2 := div_div_cancel₀ (by positivity)
  rw [amps_eq_mul_abs hv hg hr, twice]
  norm_num

/-- On the scale, a value is at most one unit away from half scale, so the current is at most that at the ends
(R166). -/
theorem amps_le {x : Rat} (h0 : 0 ≤ x) (hx : x ≤ c.adcMax) : amps c x ≤ c.vref / (2 * c.gain * c.rsense) := by
  have half : (0 : Rat) < c.adcMax / 2 := by positivity
  have lower : 0 ≤ x / (c.adcMax / 2) := div_nonneg h0 half.le
  have upper : x / (c.adcMax / 2) ≤ 2 := (div_le_iff₀ half).mpr (by linarith)
  have distance : |1 - x / (c.adcMax / 2)| ≤ 1 := abs_le.mpr ⟨by linarith, by linarith⟩
  rw [amps_eq_mul_abs hv hg hr]
  exact mul_le_of_le_one_right (fullScaleAmps_pos hv hg hr).le distance

end

end Sys2Proof.Machine

namespace Sys2Proof.Proofs

open Sys2Proof.Machine

/-- Settles O32: the formula is the definition; the zero, the two ends and the bound are read off
`amps_eq_mul_abs`. -/
theorem currentConversion : Obligations.CurrentConversion :=
  fun c x hv hm hg hr =>
    ⟨rfl, amps_nonneg c x, amps_eq_zero_iff hv hg hr hm, amps_zero hv hg hr, amps_adcMax hv hg hr hm,
      amps_le hv hg hr hm⟩

end Sys2Proof.Proofs
end

section
/-! The outside surface: ESET, EACK, SGET, SSET, SFLD and RESET (45_estop_store_events.md R190 to R195, R199). -/

namespace Sys2Proof.Machine

/-! ### Cells by address -/

/-- An address is the cell of `S[k].w` exactly when its number is `2*k + w` (R61). -/
theorem eq_cellOf_iff {addr : Fin 8} {k : Key} {w : Field} :
    addr = cellOf k w ↔ addr.val = 2 * k.number + w.number := by
  rw [Fin.ext_iff, cellOf_val]

/-- The cell of `S[k].w` holds that field of that entry (R61). -/
@[simp] theorem State.memRead_cellOf (s : State) (k : Key) (w : Field) :
    s.memRead (cellOf k w) = (s.store.get k).get w := by
  unfold State.memRead
  rw [addrKey_cellOf, addrField_cellOf]

/-- Opening the result port leaves every cell. -/
@[simp] theorem State.memRead_openRes (s : State) (addr : Fin 8) : s.openRes.memRead addr = s.memRead addr := rfl

/-- A result leaves every cell. -/
@[simp] theorem State.memRead_answer (s : State) (r : Result) (addr : Fin 8) :
    (s.answer r).memRead addr = s.memRead addr := rfl

/-- Every cell after a write of `S[k].w`, by its number. -/
theorem State.memRead_memWrite_cellOf (s : State) (k : Key) (w : Field) (v : Rat) (addr : Fin 8) :
    (s.memWrite (cellOf k w) v).memRead addr =
      if addr.val = 2 * k.number + w.number then v else s.memRead addr := by
  split
  case isTrue written => rw [eq_cellOf_iff.mpr written, State.memRead_memWrite_same]
  case isFalse other => exact s.memRead_memWrite_ne v (mt eq_cellOf_iff.mp other)

/-- A write of an entry is a write of each of its two cells. -/
theorem State.writeEntry_eq_memWrite_memWrite (s : State) (k : Key) (e : Entry) :
    s.writeEntry k e = (s.memWrite (cellOf k .filtered) e.filtered).memWrite (cellOf k .raw) e.raw := by
  cases k <;> rfl

/-- Every cell after a write of `S[k]`, by its number. -/
theorem State.memRead_writeEntry (s : State) (k : Key) (e : Entry) (addr : Fin 8) :
    (s.writeEntry k e).memRead addr =
      if addr.val = 2 * k.number then e.raw
      else if addr.val = 2 * k.number + 1 then e.filtered else s.memRead addr := by
  rw [State.writeEntry_eq_memWrite_memWrite, State.memRead_memWrite_cellOf, State.memRead_memWrite_cellOf]
  rfl

/-! ### The store's operations under their grant -/

/-- A store operation without its lock: the timeout and its exception, no state (R72, R212). -/
theorem State.lockTimeout_eq (s : State) (k : Key) :
    (s.openRes.raise (.lockTimeout k)).answer .timeout = { s with res := ⟨.timeout, [.lockTimeout k]⟩ } := rfl

/-- SGET with the lock hands back the entry (R193). -/
theorem exec_sget_granted (k : Key) (s : State) :
    exec (.sget true k) s = .next (s.openRes.answer (.entry (s.store.get k))) := rfl

/-- SGET without the lock (R193). -/
theorem exec_sget_timeout (k : Key) (s : State) :
    exec (.sget false k) s = .next { s with res := ⟨.timeout, [.lockTimeout k]⟩ } :=
  congrArg Host.Outcome.next (s.lockTimeout_eq k)

/-- SSET with the lock writes the entry (R194). -/
theorem exec_sset_granted (k : Key) (a b : Rat) (s : State) :
    exec (.sset true k a b) s = .next ((s.openRes.writeEntry k ⟨a, b⟩).answer .ok) := rfl

/-- SSET without the lock (R194). -/
theorem exec_sset_timeout (k : Key) (a b : Rat) (s : State) :
    exec (.sset false k a b) s = .next { s with res := ⟨.timeout, [.lockTimeout k]⟩ } :=
  congrArg Host.Outcome.next (s.lockTimeout_eq k)

/-- SFLD with the lock writes the cell (R195). -/
theorem exec_sfld_granted (w : Field) (k : Key) (v : Rat) (s : State) :
    exec (.sfld true w k v) s = .next ((s.openRes.memWrite (cellOf k w) v).answer .ok) := rfl

/-- SFLD without the lock (R195). -/
theorem exec_sfld_timeout (w : Field) (k : Key) (v : Rat) (s : State) :
    exec (.sfld false w k v) s = .next { s with res := ⟨.timeout, [.lockTimeout k]⟩ } :=
  congrArg Host.Outcome.next (s.lockTimeout_eq k)

/-! ### The emergency stop and power-up -/

/-- ESET is the trip (R190). -/
theorem exec_eset (s : State) : exec .eset s = .next s.openRes.trip := rfl

/-- EACK is the acknowledgment (R191). -/
theorem exec_eack (s : State) : exec .eack s = .next s.openRes.acknowledge := rfl

/-- RESET is power-up (R199). -/
theorem exec_reset (s : State) : exec .reset s = .next s.powerUp := rfl

end Sys2Proof.Machine

namespace Sys2Proof.Proofs

open Sys2Proof.Machine

/-- Settles O42: the two addresses are the cells of the entry's fields, which together are the entry. -/
theorem sgetReadsOnePair : Obligations.SgetReadsOnePair := by
  intro k s r f hr hf
  have rawCell : r = cellOf k .raw := eq_cellOf_iff.mpr hr
  have filteredCell : f = cellOf k .filtered := eq_cellOf_iff.mpr hf
  refine ⟨?granted, exec_sget_timeout k s⟩
  case granted =>
    rw [rawCell, filteredCell, State.memRead_cellOf, State.memRead_cellOf, exec_sget_granted]
    rfl

/-- Settles O43: with the lock the cells are those `State.memRead_writeEntry` gives. -/
theorem ssetWritesOnePair : Obligations.SsetWritesOnePair := by
  intro k a b s
  refine ⟨⟨_, exec_sset_granted k a b s, rfl, fun addr => ?cells⟩, exec_sset_timeout k a b s⟩
  case cells => rw [State.memRead_answer, State.memRead_writeEntry, State.memRead_openRes]

/-- Settles O44: with the lock the cells are those `State.memRead_memWrite_cellOf` gives. -/
theorem sfldWritesOneCell : Obligations.SfldWritesOneCell := by
  intro w k v s
  refine ⟨⟨_, exec_sfld_granted w k v s, rfl, fun addr => ?cells⟩, exec_sfld_timeout w k v s⟩
  case cells => rw [State.memRead_answer, State.memRead_memWrite_cellOf, State.memRead_openRes]

/-- Settles O39: the trip and the acknowledgment each write `estop` alone. -/
theorem esetSetsAndEackClears : Obligations.EsetSetsAndEackClears :=
  fun s => ⟨exec_eset s, exec_eack s⟩

/-- Settles O48: RESET is `State.powerUp`, each of whose items is the table's value by definition. -/
theorem resetGivesEveryItemItsValue : Obligations.ResetGivesEveryItemItsValue := by
  intro s
  refine ⟨s.powerUp, exec_reset s, ?_⟩
  rw [State.powerUp_eq]
  and_intros <;> rfl

end Sys2Proof.Proofs
end

section
/-! What each principal's operations write (60_exceptions.md R225). -/

namespace Sys2Proof.Machine

/-! ### Any principal -/

/-- Handing back on the result port alone is every principal's right, but for the ADC source, whose one operation
appends. -/
theorem writesOnlyItsState_res {p : Principal} (s : State) (r : Response) (hp : p ≠ .adcSource := by decide) :
    p.writesOnlyItsState s { s with res := r } := by
  cases p with
  | hallSource x => exact ⟨rfl, fun _ _ => rfl⟩
  | adcSource => exact absurd rfl hp
  | rampTimer | commutationTask | speedTask | consumers => exact ⟨rfl, .inl rfl⟩
  | monitorTask => exact ⟨rfl, .inl rfl, .inl rfl, .inl rfl⟩
  | operator => exact rfl
  | powerUp => trivial

/-! ### The interrupt sources -/

/-- Two sensors with one number are one sensor (R83). -/
theorem sensor_number_injective : Function.Injective Sensor.number := by
  intro x y; cases x <;> cases y <;> decide

/-- A sensor's edge writes that sensor's bit, the counter and the permit (R101). -/
theorem hedge_writesOnlyItsState {x : Sensor} {l : Bool} {s t : State} (h : exec (.hedge x l) s = .next t) :
    (Principal.hallSource x).writesOnlyItsState s t := by
  cases h
  refine ⟨rfl, fun y hy => ?otherBit⟩
  case otherBit => exact setHallBit_getLsbD_ne s.hall l (sensor_number_lt y) (sensor_number_injective.ne hy)

/-- A push appends one pair, to the ring or to the ring without its oldest (R63). -/
theorem ringPush_cases (cap : Nat) (r : List Sample) (x : Sample) :
    ringPush cap r x = r ++ [x] ∨ ringPush cap r x = r.drop 1 ++ [x] := by
  unfold ringPush
  split
  case isTrue full => exact .inr rfl
  case isFalse room => exact .inl rfl

/-- A conversion appends its pair to the ring (R165). -/
theorem adcp_writesOnlyItsState {a b : Nat} {s t : State} (h : exec (.adcp a b) s = .next t) :
    Principal.adcSource.writesOnlyItsState s t := by
  cases h
  exact ⟨rfl, ⟨a, b⟩, ringPush_cases s.cfg.rbCap s.ring ⟨a, b⟩⟩

/-- The target of a tick is the operator's or 0 (R154). -/
theorem State.rampTarget_cases (s : State) : s.rampTarget = s.target ∨ s.rampTarget = 0 := by
  unfold State.rampTarget
  split
  case isTrue estop => exact .inr rfl
  case isFalse noEstop => exact .inl rfl

/-- The move of a tick writes the setpoint and the motor flag, nothing else (R152 steps 4 and 5). -/
theorem State.rampMove_frame (s : State) (step : Int) :
    s.rampMove step = { s with soft := (s.rampMove step).soft, motorOn := (s.rampMove step).motorOn } := by
  obtain ⟨-, h⟩ | ⟨-, -, h⟩ | ⟨-, -, h⟩ := s.rampMove_cases step <;> rw [h]

/-- A tick writes the setpoint and the motor flag, and the target only to 0 (R152). -/
theorem rtick_writesOnlyItsState {s t : State} (h : exec .rtick s = .next t) :
    Principal.rampTimer.writesOnlyItsState s t := by
  by_cases hr : s.motorOn = true ∨ 0 < s.target
  case pos =>
    rw [exec_rtick_of_running hr, State.rampMove_frame] at h
    cases h
    exact ⟨rfl, s.rampTarget_cases⟩
  case neg =>
    obtain ⟨off, notPositive⟩ := not_or.mp hr
    rw [exec_rtick_of_stopped (Bool.eq_false_of_not_eq_true off) (not_lt.mp notPositive)] at h
    cases h
    exact writesOnlyItsState_res s _

/-! ### The commutation task -/

/-- The captured wake-up clears the permit and commutates, or is held (R103). -/
theorem cwake_writesOnlyItsState {s t : State} (h : exec .cwake s = .next t) :
    Principal.commutationTask.writesOnlyItsState s t := by
  cases hp : s.hallPending
  case true =>
    rw [exec_cwake_of_permit hp, State.commutate_eq] at h
    cases h
    exact ⟨rfl, .inr rfl⟩
  case false =>
    rw [exec_cwake_of_no_permit hp] at h
    cases h
    exact writesOnlyItsState_res s _

/-- CPOLL with a permit pending is `HELD` (R104). -/
theorem exec_cpoll_of_permit (p : HallCode) {s : State} (hp : s.hallPending = true) :
    exec (.cpoll p) s = .next (s.openRes.answer .held) := by
  simp only [exec, execCpoll, if_pos hp]

/-- CPOLL without a permit commutates on the pins (R104). -/
theorem exec_cpoll_of_no_permit (p : HallCode) {s : State} (hp : s.hallPending = false) :
    exec (.cpoll p) s = .next (s.openRes.commutate p) := by
  simp only [exec, execCpoll, hp, Bool.false_eq_true, if_false]

/-- The polling fallback commutates and leaves the permit, or is held (R104). -/
theorem cpoll_writesOnlyItsState {p : HallCode} {s t : State} (h : exec (.cpoll p) s = .next t) :
    Principal.commutationTask.writesOnlyItsState s t := by
  cases hp : s.hallPending
  case true =>
    rw [exec_cpoll_of_permit p hp] at h
    cases h
    exact writesOnlyItsState_res s _
  case false =>
    rw [exec_cpoll_of_no_permit p hp, State.commutate_eq] at h
    cases h
    exact ⟨rfl, .inl rfl⟩

/-! ### The speed task

SPDC is RPMS, PIDS and DAPP in a row (R140), so the task's right is shown of each part and composed. -/

/-- What the speed task may write it may write twice. -/
theorem speedTask_writesOnlyItsState_trans {s t u : State} (hst : Principal.speedTask.writesOnlyItsState s t)
    (htu : Principal.speedTask.writesOnlyItsState t u) : Principal.speedTask.writesOnlyItsState s u := by
  obtain ⟨frameT, counterT⟩ := hst
  obtain ⟨frameU, counterU⟩ := htu
  refine ⟨?frame, ?counter⟩
  case frame => rw [frameU, frameT]
  case counter =>
    obtain kept | cleared := counterU
    · rwa [kept]
    · exact .inr cleared

/-- A publish of the RPM or of the duty is the speed task's (R122, R139). -/
theorem publishAny_writesOnlyItsState {k : Key} (hk : k = .rpm ∨ k = .pwm) (s : State) (g : Bool) (v : Rat) :
    Principal.speedTask.writesOnlyItsState s (s.publishAny g k v) := by
  rw [State.publishAny_eq]
  refine ⟨?frame, .inl rfl⟩
  case frame => obtain rfl | rfl := hk <;> cases g <;> rfl

/-- The body of RPMS raises, or clears the counter and publishes (R122). -/
theorem sampleRpm_writesOnlyItsState (s : State) (g : Bool) (e : Nat) :
    Principal.speedTask.writesOnlyItsState s (s.sampleRpm g e).2 := by
  by_cases he : e = 0
  case pos =>
    subst he
    exact writesOnlyItsState_res s _
  case neg =>
    rw [State.sampleRpm_pos s g he]
    have clears : Principal.speedTask.writesOnlyItsState s { s with tcount := 0 } := ⟨rfl, .inr rfl⟩
    exact speedTask_writesOnlyItsState_trans clears (publishAny_writesOnlyItsState (.inl rfl) _ g _)

/-- The body of PIDS writes the controller's four registers (R138). -/
theorem runPid_writesOnlyItsState (s : State) (m : Rat) (e : Int) :
    Principal.speedTask.writesOnlyItsState s (s.runPid m e).2 := by
  rw [State.runPid_frame]
  exact ⟨rfl, .inl rfl⟩

/-- The body of DAPP holds, or writes the duty port and publishes (R139). -/
theorem applyDuty_writesOnlyItsState (s : State) (g : Bool) :
    Principal.speedTask.writesOnlyItsState s (s.applyDuty g) := by
  cases invalid : s.pidErr
  case true =>
    rw [s.applyDuty_hold g invalid]
    exact writesOnlyItsState_res s s.res
  case false =>
    rw [s.applyDuty_apply g invalid]
    have drives : Principal.speedTask.writesOnlyItsState s { s with drvDuty := s.pidOut } := ⟨rfl, .inl rfl⟩
    exact speedTask_writesOnlyItsState_trans drives (publishAny_writesOnlyItsState (.inr rfl) _ g _)

/-- A speed-task body that runs on an open result port and then answers keeps the task's right. -/
theorem openRes_answer_writesOnlyItsState {s t : State} (r : Result)
    (body : Principal.speedTask.writesOnlyItsState s.openRes t) :
    Principal.speedTask.writesOnlyItsState s (t.answer r) :=
  speedTask_writesOnlyItsState_trans (writesOnlyItsState_res s _)
    (speedTask_writesOnlyItsState_trans body (writesOnlyItsState_res t _))

/-- The sample, skipped or taken (R122). -/
theorem rpms_writesOnlyItsState {g : Bool} {e : Nat} {s t : State} (h : exec (.rpms g e) s = .next t) :
    Principal.speedTask.writesOnlyItsState s t := by
  have sample := sampleRpm_writesOnlyItsState s.openRes g e
  rcases sampled : s.openRes.sampleRpm g e with ⟨_ | q, u⟩ <;> rw [sampled] at sample
  case none =>
    simp only [exec, execRpms, sampled] at h
    cases h
    exact openRes_answer_writesOnlyItsState _ sample
  case some =>
    rw [exec_rpms_of_sampleRpm sampled] at h
    cases h
    exact openRes_answer_writesOnlyItsState _ sample

theorem pids_writesOnlyItsState {m : Rat} {e : Int} {s t : State} (h : exec (.pids m e) s = .next t) :
    Principal.speedTask.writesOnlyItsState s t := by
  cases h
  exact openRes_answer_writesOnlyItsState _ (runPid_writesOnlyItsState s.openRes m e)

theorem dapp_writesOnlyItsState {g : Bool} {s t : State} (h : exec (.dapp g) s = .next t) :
    Principal.speedTask.writesOnlyItsState s t := by
  cases h
  exact speedTask_writesOnlyItsState_trans (writesOnlyItsState_res s _)
    (applyDuty_writesOnlyItsState s.openRes g)

/-- The skip, or the three parts in a row (R140). -/
theorem spdc_writesOnlyItsState {g : Bool} {e : Nat} {ms : Int} {s t : State}
    (h : exec (.spdc g e ms) s = .next t) : Principal.speedTask.writesOnlyItsState s t := by
  have sample := sampleRpm_writesOnlyItsState s.openRes g e
  rcases sampled : s.openRes.sampleRpm g e with ⟨_ | q, u⟩ <;> rw [sampled] at sample
  case none =>
    simp only [exec, execSpdc, sampled] at h
    cases h
    exact openRes_answer_writesOnlyItsState _ sample
  case some =>
    rw [exec_spdc_of_sampleRpm sampled] at h
    cases h
    have control := runPid_writesOnlyItsState u q ms
    have drive := applyDuty_writesOnlyItsState (u.runPid q ms).2 g
    exact openRes_answer_writesOnlyItsState _
      (speedTask_writesOnlyItsState_trans sample (speedTask_writesOnlyItsState_trans control drive))

/-! ### The monitor task -/

/-- The cycle drains the ring (R168). -/
@[simp] theorem State.monitorCycle_ring (s : State) (g : Bool) (r : List Sample) : (s.monitorCycle g r).ring = [] := by
  simp only [State.monitorCycle, State.publishPower_eq, State.clobberLimit_eq, State.compareAndTrip_eq,
    State.filterAll]

/-- The cycle sets `estop` over the limit it finds, and never clears it (R174). -/
@[simp] theorem State.monitorCycle_estop (s : State) (g : Bool) (r : List Sample) :
    (s.monitorCycle g r).estop = (s.estop || exceedsLimit (totalMilliamps s.cfg r) s.store.climit.raw) := by
  simp only [State.monitorCycle, State.publishPower_eq, State.clobberLimit_eq, State.compareAndTrip_eq,
    State.filterAll]

/-- The cycle writes the filter memories, the flags and the entries of the monitor, drains the ring, and can only set
`estop` and append to the queue (R167, R174, R176). -/
theorem monitorCycle_writesOnlyItsState (s : State) (g : Bool) (r : List Sample) :
    Principal.monitorTask.writesOnlyItsState s (s.monitorCycle g r) := by
  refine ⟨?frame, ?estop, ?queue, .inr (s.monitorCycle_ring g r)⟩
  case frame =>
    simp only [State.monitorCycle, State.publishPower_eq, State.clobberLimit_eq, State.compareAndTrip_eq,
      State.filterAll]
  case estop =>
    rw [State.monitorCycle_estop]
    cases exceedsLimit (totalMilliamps s.cfg r) s.store.climit.raw <;> simp
  case queue =>
    rw [State.monitorCycle_evq]
    obtain ⟨-, push⟩ | ⟨-, push⟩ := evPush_cases s.cfg.evqCap s.evq .power <;> cases g <;> simp [push]

theorem monc_writesOnlyItsState {g : Bool} {s t : State} (h : exec (.monc g) s = .next t) :
    Principal.monitorTask.writesOnlyItsState s t := by
  by_cases hr : s.ring = []
  case pos =>
    rw [exec_monc_of_ring_nil g hr] at h
    cases h
    exact writesOnlyItsState_res s _
  case neg =>
    rw [exec_monc_of_ring_ne_nil g hr] at h
    cases h
    exact monitorCycle_writesOnlyItsState s.openRes g s.ring

/-! ### The operator and the consumers -/

/-- Reading an entry writes nothing, whoever reads (R193). -/
theorem sget_writesOnlyItsState {p : Principal} (hp : p ≠ .adcSource) {g : Bool} {k : Key} {s t : State}
    (h : exec (.sget g k) s = .next t) : p.writesOnlyItsState s t := by
  cases g <;> cases h <;> exact writesOnlyItsState_res s _ hp

theorem evpop_writesOnlyItsState {s t : State} (h : exec .evpop s = .next t) :
    Principal.consumers.writesOnlyItsState s t := by
  have queue := exec_evpop_evq h
  cases h
  exact ⟨rfl, .inr queue⟩

end Sys2Proof.Machine

namespace Sys2Proof.Proofs

open Sys2Proof.Machine

/-- Settles O53, by the operation, which names the principal that may present it; what it writes is its
`writesOnlyItsState` lemma. The operator's writes are whole fields of its row of R225. -/
theorem principalsWriteOnlyTheirState : Obligations.PrincipalsWriteOnlyTheirState := by
  intro p i s t hp h
  cases i with
  | hedge x l => obtain rfl := of_decide_eq_true hp; exact hedge_writesOnlyItsState h
  | adcp a b => obtain rfl := of_decide_eq_true hp; exact adcp_writesOnlyItsState h
  | rtick => obtain rfl := of_decide_eq_true hp; exact rtick_writesOnlyItsState h
  | cwake => obtain rfl := of_decide_eq_true hp; exact cwake_writesOnlyItsState h
  | cpoll pins => obtain rfl := of_decide_eq_true hp; exact cpoll_writesOnlyItsState h
  | rpms g e => obtain rfl := of_decide_eq_true hp; exact rpms_writesOnlyItsState h
  | pids m e => obtain rfl := of_decide_eq_true hp; exact pids_writesOnlyItsState h
  | dapp g => obtain rfl := of_decide_eq_true hp; exact dapp_writesOnlyItsState h
  | spdc g e ms => obtain rfl := of_decide_eq_true hp; exact spdc_writesOnlyItsState h
  | monc g => obtain rfl := of_decide_eq_true hp; exact monc_writesOnlyItsState h
  | tset | eset | eack => obtain rfl := of_decide_eq_true hp; cases h; exact rfl
  | sset g | sfld g => obtain rfl := of_decide_eq_true hp; cases g <;> cases h <;> exact rfl
  | sget g k =>
    obtain rfl | rfl := of_decide_eq_true hp
    · exact sget_writesOnlyItsState (by decide) h
    · exact sget_writesOnlyItsState (by decide) h
  | evpop => obtain rfl := of_decide_eq_true hp; exact evpop_writesOnlyItsState h
  | reset => obtain rfl := of_decide_eq_true hp; trivial

end Sys2Proof.Proofs
end

section
/-! The machine right after reset (70_reset_and_hazards.md R240). -/

namespace Sys2Proof.Machine

/-- The machine right after reset is a fixed point of RESET: it has nothing that RESET would give another value. -/
theorem exec_reset_of_reset : exec .reset State.reset = .next State.reset := exec_reset State.reset

end Sys2Proof.Machine

namespace Sys2Proof.Proofs

open Sys2Proof.Machine

/-- Settles O49: RESET gives every item its value from any state (O48), and it leads from the machine after reset to
that machine itself. -/
theorem stateAfterReset : Obligations.StateAfterReset := by
  obtain ⟨t, next, -, items⟩ := resetGivesEveryItemItsValue State.reset
  rw [exec_reset_of_reset] at next
  cases next
  exact ⟨State.reset, rfl, items⟩

end Sys2Proof.Proofs
end

section
/-! The decoder and the encoder undo one another (30_encoding.md R81 to R87). -/

namespace Sys2Proof

/-! ### An operation read back from its command -/

/-- The word of every operation is the word of its own row (R82). -/
theorem rowSelects (i : Instr) : Laws.RowSelects.Statement i := by
  cases i with
  | hedge x l => exact Laws.RowSelects.hedge x l
  | cwake => exact Laws.RowSelects.cwake
  | cpoll p => exact Laws.RowSelects.cpoll p
  | rpms g e => exact Laws.RowSelects.rpms g e
  | pids m e => exact Laws.RowSelects.pids m e
  | dapp g => exact Laws.RowSelects.dapp g
  | spdc g a e => exact Laws.RowSelects.spdc g a e
  | rtick => exact Laws.RowSelects.rtick
  | adcp a b => exact Laws.RowSelects.adcp a b
  | monc g => exact Laws.RowSelects.monc g
  | tset v => exact Laws.RowSelects.tset v
  | eset => exact Laws.RowSelects.eset
  | eack => exact Laws.RowSelects.eack
  | sget g k => exact Laws.RowSelects.sget g k
  | sset g k r f => exact Laws.RowSelects.sset g k r f
  | sfld g w k v => exact Laws.RowSelects.sfld g w k v
  | evpop => exact Laws.RowSelects.evpop
  | reset => exact Laws.RowSelects.reset

/-- The fields of HEDGE's word (R83). -/
theorem fields_hedge (x : Sensor) (l : Bool) :
    sensorField (opWord (.hedge x l)) = some x ∧ (opWord (.hedge x l)).getLsbD 0 = l := by
  cases x <;> cases l <;> decide +kernel

/-- The pins in CPOLL's word (R83). -/
theorem pinsField_cpoll (p : HallCode) : pinsField (opWord (.cpoll p)) = p := by
  revert p; decide +kernel

/-- The fields of SGET's word (R83). -/
theorem fields_sget (g : Bool) (k : Key) :
    (opWord (.sget g k)).getLsbD 2 = g ∧ keyField (opWord (.sget g k)) = k := by
  cases g <;> cases k <;> decide +kernel

/-- The grant of the formats that carry it in bit 0 (R83). -/
theorem grant_bit_zero (g : Bool) :
    (0x20#8 ||| bitAt 0 g).getLsbD 0 = g ∧ (0x24#8 ||| bitAt 0 g).getLsbD 0 = g ∧
      (0x26#8 ||| bitAt 0 g).getLsbD 0 = g ∧ (0x42#8 ||| bitAt 0 g).getLsbD 0 = g := by
  cases g <;> decide +kernel

/-- A row reads its own fields and ports back (R83, R84). -/
theorem decodeAs_encode (i : Instr) : decodeAs i.op (encode i) = .ok i := by
  cases i with
  | hedge x l =>
    obtain ⟨sensor, level⟩ := fields_hedge x l
    simp only [Instr.op, decodeAs, encode, sensor, level]
  | cpoll p => simp only [Instr.op, decodeAs, encode, pinsField_cpoll]
  | rpms g e =>
    obtain ⟨grant, -⟩ := grant_bit_zero g
    simp only [Instr.op, decodeAs, encode, opWord, portA, grant, portNat_natCast, Option.map_some, Op.typed]
  | pids m e => simp only [Instr.op, decodeAs, encode, portA, portB, portInt_intCast, Option.map_some, Op.typed]
  | dapp g =>
    obtain ⟨-, grant, -⟩ := grant_bit_zero g
    simp only [Instr.op, decodeAs, encode, opWord, grant]
  | spdc g a e =>
    obtain ⟨-, -, grant, -⟩ := grant_bit_zero g
    simp only [Instr.op, decodeAs, encode, opWord, portA, portB, grant, portNat_natCast, portInt_intCast,
      Option.bind_some, Option.map_some, Op.typed]
  | adcp a b =>
    simp only [Instr.op, decodeAs, encode, portA, portB, portNat_natCast, Option.bind_some, Option.map_some, Op.typed]
  | monc g =>
    obtain ⟨-, -, -, grant⟩ := grant_bit_zero g
    simp only [Instr.op, decodeAs, encode, opWord, grant]
  | tset v => simp only [Instr.op, decodeAs, encode, portA, portInt_intCast, Option.map_some, Op.typed]
  | sget g k =>
    obtain ⟨grant, key⟩ := fields_sget g k
    simp only [Instr.op, decodeAs, encode, grant, key]
  | sset g k r f =>
    obtain ⟨grant, key⟩ := fields_sset g k
    simp only [Instr.op, decodeAs, encode, opWord, portA, portB, grant, key]
  | sfld g w k v =>
    obtain ⟨grant, field, key⟩ := fields_sfld g w k
    simp only [Instr.op, decodeAs, encode, opWord, portA, grant, field, key]
  | cwake | rtick | eset | eack | evpop | reset => rfl

/-- The decoder undoes the encoder (R82 to R87). -/
theorem decode_encode (i : Instr) : decode (encode i) = .ok i := by
  obtain ⟨r, row, own⟩ := Option.map_eq_some_iff.mp (rowSelects i)
  rw [decode_of_rowOf (c := encode i) row, own, decodeAs_encode]

/-! ### A command read back from its operation -/

/-- A typed operand that is there gives the operation (R84). -/
theorem Op.typed_eq_ok {op : Op} {o : Option Instr} {i : Instr} : op.typed o = .ok i ↔ o = some i := by
  cases o <;> simp [Op.typed]

/-- What a row reads from the ports is what they carry, and its word depends on the command's word alone, not on the
ports (R83, R84). -/
theorem decodeAs_eq_ok {op : Op} {c : Command} {i : Instr} (h : decodeAs op c = .ok i) :
    (∃ j, decodeAs op ⟨c.op, 0, 0⟩ = .ok j ∧ opWord j = opWord i) ∧ (i.op.readsA = true → portA i = c.a) ∧
      (i.op.readsB = true → portB i = c.b) := by
  have nat : portNat 0 = some 0 := portNat_natCast 0
  have int : portInt 0 = some 0 := portInt_intCast 0
  cases op with
  | HEDGE =>
    simp only [decodeAs] at h ⊢
    split at h <;> cases h
    exact ⟨⟨_, rfl, rfl⟩, nofun, nofun⟩
  | RPMS =>
    simp only [decodeAs, Op.typed_eq_ok, nat] at h ⊢
    obtain ⟨e, port, rfl⟩ := Option.map_eq_some_iff.mp h
    exact ⟨⟨_, rfl, rfl⟩, fun _ => (portNat_eq_some port).symm, nofun⟩
  | PIDS =>
    simp only [decodeAs, Op.typed_eq_ok, int] at h ⊢
    obtain ⟨e, port, rfl⟩ := Option.map_eq_some_iff.mp h
    exact ⟨⟨_, rfl, rfl⟩, fun _ => rfl, fun _ => (portInt_eq_some port).symm⟩
  | SPDC =>
    simp only [decodeAs, Op.typed_eq_ok, nat, int] at h ⊢
    obtain ⟨a, ticks, rest⟩ := Option.bind_eq_some_iff.mp h
    obtain ⟨e, ms, rfl⟩ := Option.map_eq_some_iff.mp rest
    exact ⟨⟨_, rfl, rfl⟩, fun _ => (portNat_eq_some ticks).symm, fun _ => (portInt_eq_some ms).symm⟩
  | ADCP =>
    simp only [decodeAs, Op.typed_eq_ok, nat] at h ⊢
    obtain ⟨a, codeA, rest⟩ := Option.bind_eq_some_iff.mp h
    obtain ⟨b, codeB, rfl⟩ := Option.map_eq_some_iff.mp rest
    exact ⟨⟨_, rfl, rfl⟩, fun _ => (portNat_eq_some codeA).symm, fun _ => (portNat_eq_some codeB).symm⟩
  | TSET =>
    simp only [decodeAs, Op.typed_eq_ok, int] at h ⊢
    obtain ⟨v, port, rfl⟩ := Option.map_eq_some_iff.mp h
    exact ⟨⟨_, rfl, rfl⟩, fun _ => (portInt_eq_some port).symm, nofun⟩
  | SSET => cases h; exact ⟨⟨_, rfl, rfl⟩, fun _ => rfl, fun _ => rfl⟩
  | SFLD => cases h; exact ⟨⟨_, rfl, rfl⟩, fun _ => rfl, nofun⟩
  | CWAKE | CPOLL | DAPP | RTICK | MONC | ESET | EACK | SGET | EVPOP | RESET =>
    cases h; exact ⟨⟨_, rfl, rfl⟩, nofun, nofun⟩

/-- Each of the 256 words, read with both ports 0, is reserved or is the word of what it decodes to (R82, R83). -/
theorem opWord_of_decode_word :
    ∀ w : OpWord, (decode ⟨w, 0, 0⟩).toOption.all (fun i => opWord i == w) = true := by
  decide +kernel

/-- A command that decodes has the word of what it decodes to, and its ports where the format reads them. -/
theorem encode_of_decode {c : Command} {i : Instr} (h : decode c = .ok i) :
    opWord i = c.op ∧ (i.op.readsA = true → portA i = c.a) ∧ (i.op.readsB = true → portB i = c.b) := by
  rcases row : rowOf c.op with _ | r
  case none => rw [decode_of_rowOf_none row] at h; cases h
  case some =>
    rw [decode_of_rowOf row] at h
    obtain ⟨⟨j, bare, sameWord⟩, ports⟩ := decodeAs_eq_ok h
    have ofWord := opWord_of_decode_word c.op
    rw [decode_of_rowOf (c := ⟨c.op, 0, 0⟩) row, bare] at ofWord
    exact ⟨sameWord.symm.trans (eq_of_beq ofWord), ports⟩

end Sys2Proof

namespace Sys2Proof.Proofs

/-- Settles O1: the word selects the operation's own row (`rowSelects`), and a row reads its own fields and ports back
(`decodeAs_encode`). -/
theorem decodeOfEncodeIsTheOperation : Obligations.DecodeOfEncodeIsTheOperation :=
  fun _ i _ => decode_encode i

/-- Settles O2: the word of the operation depends on the command's word alone, so it is read off the 256 words. -/
theorem acceptedCommandIsTheEncodingOfItsMeaning : Obligations.AcceptedCommandIsTheEncodingOfItsMeaning :=
  fun _ _ => encode_of_decode

/-- Settles O3, by the 256 words. -/
theorem opcodeMapSelectsSixtyThreeWords : Obligations.OpcodeMapSelectsSixtyThreeWords := by
  unfold Obligations.OpcodeMapSelectsSixtyThreeWords
  constructor <;> decide +kernel

/-- Settles O4: ten closed values of the decoder. -/
theorem sampleWordsDecode : Obligations.SampleWordsDecode := by
  unfold Obligations.SampleWordsDecode
  decide +kernel

end Sys2Proof.Proofs
end

section
/-! Who writes what: the registers, flags, port registers and queues (10_state.md R21 to R36), the store (R34). -/

namespace Sys2Proof.Machine

open Sys2Proof.Claims

/-! ### The frame of an operation -/

/-- `s` with the items that `i` is a writer of (R21 to R36) taken from `t`. The parameters and what the environment will
present are nobody's (log 4, log 1). -/
def State.takeWritten (s t : State) : Instr → State
  | .hedge _ _ => { s with hall := t.hall, tcount := t.tcount, hallPending := t.hallPending, res := t.res }
  | .cwake =>
    { s with
      hallPending := t.hallPending, wasDisabled := t.wasDisabled, drvEn := t.drvEn, drvPhase := t.drvPhase,
      res := t.res }
  | .cpoll _ => { s with wasDisabled := t.wasDisabled, drvEn := t.drvEn, drvPhase := t.drvPhase, res := t.res }
  | .rpms _ _ =>
    { s with tcount := t.tcount, store := s.store.set (t.store.get .rpm) .rpm, draws := t.draws, res := t.res }
  | .pids _ _ => { s with integ := t.integ, perr := t.perr, pidOut := t.pidOut, pidErr := t.pidErr, res := t.res }
  | .dapp _ =>
    { s with drvDuty := t.drvDuty, store := s.store.set (t.store.get .pwm) .pwm, draws := t.draws, res := t.res }
  | .spdc _ _ _ =>
    { s with
      tcount := t.tcount, integ := t.integ, perr := t.perr, pidOut := t.pidOut, pidErr := t.pidErr,
      drvDuty := t.drvDuty, store := (s.store.set (t.store.get .rpm) .rpm).set (t.store.get .pwm) .pwm,
      draws := t.draws, res := t.res }
  | .rtick => { s with soft := t.soft, motorOn := t.motorOn, target := t.target, res := t.res }
  | .adcp _ _ => { s with ring := t.ring, res := t.res }
  | .monc _ =>
    { s with
      ring := t.ring, filtA := t.filtA, filtB := t.filtB, estop := t.estop, settling := t.settling,
      store := (s.store.set (t.store.get .power) .power).set (t.store.get .climit) .climit, evq := t.evq,
      draws := t.draws, res := t.res }
  | .tset _ => { s with target := t.target, res := t.res }
  | .eset | .eack => { s with estop := t.estop, res := t.res }
  | .sget _ _ => { s with res := t.res }
  | .sset _ k _ _ | .sfld _ _ k _ => { s with store := s.store.set (t.store.get k) k, res := t.res }
  | .evpop => { s with evq := t.evq, res := t.res }
  | .reset => { t with cfg := s.cfg, env := s.env }

/-- The polling fallback leaves the permit (R104). -/
theorem exec_cpoll_frame {p : HallCode} {s t : State} (h : exec (.cpoll p) s = .next t) :
    t = s.takeWritten t (.cpoll p) := by
  cases hp : s.hallPending
  case true => rw [exec_cpoll_of_permit p hp] at h; cases h; rfl
  case false => rw [exec_cpoll_of_no_permit p hp, State.commutate_eq] at h; cases h; rfl

/-- RPMS writes the counter and `S[0]` (R122). -/
theorem exec_rpms_frame {g : Bool} {e : Nat} {s t : State} (h : exec (.rpms g e) s = .next t) :
    t = s.takeWritten t (.rpms g e) := by
  by_cases he : e = 0
  case pos => subst he; rw [exec_rpms_zero] at h; cases h; rfl
  case neg => rw [exec_rpms_pos g he] at h; cases h; cases g <;> rfl

/-- DAPP writes the duty port and `S[2]` (R139). -/
theorem exec_dapp_frame {g : Bool} {s t : State} (h : exec (.dapp g) s = .next t) :
    t = s.takeWritten t (.dapp g) := by
  cases hi : s.pidErr
  case true => rw [exec_dapp_of_invalid g hi] at h; cases h; rfl
  case false => rw [exec_dapp_of_valid g hi] at h; cases h; cases g <;> rfl

/-- Every operation changes at most what it is a writer of (R21 to R36). -/
theorem exec_frame {i : Instr} {s t : State} (h : exec i s = .next t) : t = s.takeWritten t i := by
  cases i with
  | hedge x l => obtain ⟨frame, -⟩ := hedge_writesOnlyItsState h; exact frame
  | cwake => obtain ⟨frame, -⟩ := cwake_writesOnlyItsState h; exact frame
  | cpoll p => exact exec_cpoll_frame h
  | rpms g e => exact exec_rpms_frame h
  | pids m e => cases h; rw [State.runPid_frame]; rfl
  | dapp g => exact exec_dapp_frame h
  | spdc g a e => obtain ⟨frame, -⟩ := spdc_writesOnlyItsState h; exact frame
  | rtick => obtain ⟨frame, -⟩ := rtick_writesOnlyItsState h; exact frame
  | adcp a b => obtain ⟨frame, -⟩ := adcp_writesOnlyItsState h; exact frame
  | monc g => obtain ⟨frame, -⟩ := monc_writesOnlyItsState h; exact frame
  | sget g k => cases g <;> cases h <;> rfl
  | sset g k r f => cases g <;> cases h <;> cases k <;> rfl
  | sfld g w k v => cases g <;> cases h <;> cases k <;> cases w <;> rfl
  | tset | eset | eack | evpop | reset => cases h; rfl

/-- No operation changes the parameters or what the environment will present (log 4, log 1). -/
theorem exec_keeps_cfg_env {i : Instr} {s t : State} (h : exec i s = .next t) : t.cfg = s.cfg ∧ t.env = s.env := by
  rw [exec_frame h]
  cases i <;> exact ⟨rfl, rfl⟩

/-- An operation that does not write `S[k]` leaves it (R34). -/
theorem exec_keeps_entry {i : Instr} {s t : State} {k : Key} (h : exec i s = .next t)
    (hw : writesEntry k i = false) : t.store.get k = s.store.get k := by
  rw [exec_frame h]
  cases i with
  | rpms | dapp | sset | sfld => exact Store.get_set_ne _ _ (of_decide_eq_false hw)
  | spdc | monc =>
    obtain ⟨notFirst, notSecond⟩ := not_or.mp (of_decide_eq_false hw)
    exact (Store.get_set_ne _ _ notSecond).trans (Store.get_set_ne _ _ notFirst)
  | reset => cases hw
  | _ => rfl

/-! ### Runs -/

/-- A run goes on from where its first operation leads. -/
theorem runs_cons {i : Instr} {is : List Instr} {s t : State} (h : exec i s = .next t) :
    runs (i :: is) s = runs is t := by
  simp only [runs, h]

/-- A run of two lists is a run of the second from where the first leads. -/
theorem runs_append {is js : List Instr} {s t : State} (h : runs is s = .next t) :
    runs (is ++ js) s = runs js t := by
  induction is generalizing s with
  | nil => cases h; rfl
  | cons i is ih =>
    obtain ⟨u, next⟩ := exec_next i s
    rw [runs_cons next] at h
    rw [List.cons_append, runs_cons next, ih h]

/-- A run goes to its end (R210), and what each of its operations keeps, the run keeps. -/
theorem runs_keeps {P : State → Prop} {is : List Instr} {s : State} (hs : P s)
    (keeps : ∀ i ∈ is, ∀ s t : State, exec i s = .next t → P s → P t) :
    ∃ t : State, runs is s = .next t ∧ P t := by
  induction is generalizing s with
  | nil => exact ⟨s, rfl, hs⟩
  | cons i is ih =>
    obtain ⟨u, next⟩ := exec_next i s
    rw [runs_cons next]
    exact ih (keeps i List.mem_cons_self s u next hs) fun j hj => keeps j (List.mem_cons_of_mem i hj)

/-! ### The flags that stick -/

/-- MONC ends the settling phase or leaves it as it is (R175). -/
theorem exec_monc_settling {g : Bool} {s t : State} (h : exec (.monc g) s = .next t) (hs : s.settling = false) :
    t.settling = false := by
  by_cases hr : s.ring = []
  case pos => rw [exec_monc_of_ring_nil g hr] at h; cases h; exact hs
  case neg =>
    rw [exec_monc_of_ring_ne_nil g hr] at h
    cases h
    simp [State.monitorCycle, State.publishPower_eq, State.clobberLimit_eq, State.compareAndTrip_eq, State.filterAll,
      ignoredWhileSettling, hs]

/-- Only the acknowledgment and power-up clear `estop` (R31, R41). -/
theorem exec_keeps_estop {i : Instr} {s t : State} (h : exec i s = .next t) (hs : s.estop = true)
    (notEack : i.op ≠ .EACK) (notReset : i.op ≠ .RESET) : t.estop = true := by
  cases i with
  | monc g =>
    obtain ⟨-, kept | set, -⟩ := monc_writesOnlyItsState h
    · exact kept.trans hs
    · exact set
  | eset => cases h; rfl
  | eack => exact absurd rfl notEack
  | reset => exact absurd rfl notReset
  | _ => rw [exec_frame h]; exact hs

/-- Only power-up begins a settling phase (R41). -/
theorem exec_keeps_settled {i : Instr} {s t : State} (h : exec i s = .next t) (hs : s.settling = false)
    (notReset : i.op ≠ .RESET) : t.settling = false := by
  cases i with
  | monc g => exact exec_monc_settling h hs
  | reset => exact absurd rfl notReset
  | _ => rw [exec_frame h]; exact hs

end Sys2Proof.Machine

namespace Sys2Proof.Proofs

open Sys2Proof.Machine Sys2Proof.Claims

/-- Settles O11: the frame of each operation leaves every item that it is not a writer of. -/
theorem everyRegisterHasItsWriters : Obligations.EveryRegisterHasItsWriters := by
  intro i s t h
  rw [exec_frame h]
  cases i <;> simp [State.takeWritten, Instr.op]

/-- Settles O12: a cell is part of its key's entry, which `exec_keeps_entry` keeps. -/
theorem everyStoreCellHasItsWriters : Obligations.EveryStoreCellHasItsWriters :=
  fun _ _ _ _ h hw => State.memRead_congr (exec_keeps_entry h hw)

/-- Settles O40, by contraposition of `exec_keeps_estop` and `exec_keeps_settled`. -/
theorem estopAndSettlingAreSticky : Obligations.EstopAndSettlingAreSticky := by
  intro i s t h
  refine ⟨fun before after => ?estop, fun before after => ?settling⟩
  case estop =>
    by_contra other
    obtain ⟨notEack, notReset⟩ := not_or.mp other
    exact Bool.false_ne_true (after.symm.trans (exec_keeps_estop h before notEack notReset))
  case settling =>
    by_contra notReset
    exact Bool.false_ne_true ((exec_keeps_settled h before notReset).symm.trans after)

/-- Settles O45: the pair stands in its entry after SSET, and every operation between keeps it there. -/
theorem storeRoundTrip : Obligations.StoreRoundTrip := by
  intro k a b between s hb
  rw [runs_cons (exec_sset_granted k a b s)]
  obtain ⟨t, run, entry⟩ := runs_keeps (P := fun u => u.store.get k = ⟨a, b⟩) (is := between)
    (s := (s.openRes.writeEntry k ⟨a, b⟩).answer .ok) (Store.get_set_same _ _ _)
    fun i hi u v next held => (exec_keeps_entry next (hb i hi)).trans held
  refine ⟨t, run, ?_⟩
  rw [exec_sget_granted, entry]
  rfl

end Sys2Proof.Proofs
end

section
/-! The invariant of the block (10_state.md R38 to R40, 40_hall_commutation.md R106, 43_soft_ramp.md R160), first under
the shared operations, then under every operation and every step. -/

namespace Sys2Proof.Machine

/-! ### What the invariant needs of single values -/

/-- An admissible assignment has room for a pair (R9). -/
theorem one_le_rbCap {c : Config.Params} (hc : c.ok) : 1 ≤ c.rbCap := by
  obtain ⟨-, -, -, -, -, -, -, -, -, ring, -⟩ := hc
  exact ring

/-- The kick is a duty (R9). -/
theorem kickDuty_mem {c : Config.Params} (hc : c.ok) : 0 ≤ c.kickDuty ∧ c.kickDuty ≤ c.period := by
  obtain ⟨-, lower, upper, -⟩ := hc
  exact ⟨lower, upper⟩

/-- The period leaves room for the duty 0 (R9). -/
theorem period_nonneg {c : Config.Params} (hc : c.ok) : 0 ≤ c.period := (by decide : (0 : Int) ≤ 5).trans hc.1

/-- The saturating counter stays in its width (R22). -/
theorem countEdge_lt {c : Config.Params} {n : Nat} (hn : n < 2 ^ c.ctrBits) : countEdge c n < 2 ^ c.ctrBits := by
  unfold countEdge Config.Params.tcountMax
  split <;> omega

/-- The position decoder names a driven phase (R100). -/
theorem decodePosition_ne_coast (h : HallCode) : decodePosition h ≠ .COAST := by
  revert h; decide

/-- PIDS reports `ERR` and keeps `pid_out`, or hands back the duty that `pid_out` then holds (R133, R137, R138). -/
theorem State.runPid_outcome {s : State} (hc : s.cfg.ok) (m : Rat) (e : Int) :
    ((s.runPid m e).1 = .err ∧ (s.runPid m e).2.pidErr = true ∧ (s.runPid m e).2.pidOut = s.pidOut ∧
        (s.runPid m e).2.res = ⟨s.res.result, s.res.raised ++ [.pidInvalidInput]⟩) ∨
      ((s.runPid m e).1 = .duty (s.runPid m e).2.pidOut ∧ (s.runPid m e).2.pidErr = false ∧
        (s.runPid m e).2.res = s.res ∧ 0 ≤ (s.runPid m e).2.pidOut ∧ (s.runPid m e).2.pidOut ≤ s.cfg.period) := by
  obtain h | h | h | h := s.runPid_cases m e <;> rw [h]
  · exact .inr ⟨rfl, rfl, rfl, le_rfl, period_nonneg hc⟩
  · exact .inl ⟨rfl, rfl, rfl, rfl⟩
  · exact .inr ⟨rfl, rfl, rfl, kickDuty_mem hc⟩
  · exact .inr ⟨rfl, rfl, rfl, saturate_mem hc _⟩

/-! ### The invariant under the shared operations -/

/-- Every item that R240 gives a value meets the invariant, whatever the admissible parameters. -/
theorem State.Inv.of_initial {c : Config.Params} (hc : c.ok) : (State.initial c).Inv where
  cfgOk := hc
  tcountFits := Nat.two_pow_pos _
  targetFits := setpointFits_zero c
  softFits := setpointFits_zero c
  pidOutInRange := ⟨le_rfl, period_nonneg hc⟩
  drvDutyInRange := ⟨le_rfl, period_nonneg hc⟩
  enabledUnlessDisabled := rfl
  coastsWhenDisabled := iff_of_true rfl rfl
  stoppedHasZeroSoft := fun _ => rfl
  ringBounded := Nat.zero_le _
  evqBounded := Nat.zero_le _
  samplesFit := fun _ none => absurd none List.not_mem_nil

namespace State.Inv

variable {s : State} (h : s.Inv)
include h

/-- The invariant says nothing of the result port, the store, the counts of free values or what will be presented. -/
theorem outside (st : Store) (r : Response) (n : Nat) (env : List Command) :
    ({ s with store := st, res := r, draws := n, env := env } : State).Inv := { h with }

theorem openRes : s.openRes.Inv := h.outside _ _ _ _

theorem answer (r : Result) : (s.answer r).Inv := h.outside _ _ _ _

theorem raise (e : Exn) : (s.raise e).Inv := h.outside _ _ _ _

theorem publishAny (g : Bool) (k : Key) (v : Rat) : (s.publishAny g k v).Inv := by
  rw [State.publishAny_eq]
  exact h.outside _ _ _ _

/-- The commutation leaves the engine in one of its states, and enabled exactly when it drives (R38, R106). -/
theorem commutate (c : HallCode) : (s.commutate c).Inv := by
  rw [State.commutate_eq]
  refine { h with enabledUnlessDisabled := ?enable, coastsWhenDisabled := ?coast }
  case enable =>
    have enabled := h.enabledUnlessDisabled
    cases hd : s.wasDisabled <;> simp [enabled, hd]
  case coast => cases s.motorOn <;> simp [decodePosition_ne_coast]

/-- PIDS leaves a duty in `pid_out` (R39). -/
theorem runPid (m : Rat) (e : Int) : (s.runPid m e).2.Inv := by
  have duty : 0 ≤ (s.runPid m e).2.pidOut ∧ (s.runPid m e).2.pidOut ≤ s.cfg.period := by
    obtain ⟨-, -, kept, -⟩ | ⟨-, -, -, inRange⟩ := State.runPid_outcome h.cfgOk m e
    · rw [kept]; exact h.pidOutInRange
    · exact inRange
  rw [State.runPid_frame]
  exact { h with pidOutInRange := duty }

/-- DAPP hands the driver the duty in `pid_out`, or leaves it the one it has (R39). -/
theorem applyDuty (g : Bool) : (s.applyDuty g).Inv := by
  cases hi : s.pidErr
  case true => rw [s.applyDuty_hold g hi]; exact h
  case false =>
    rw [s.applyDuty_apply g hi]
    have drives : ({ s with drvDuty := s.pidOut } : State).Inv := { h with drvDutyInRange := h.pidOutInRange }
    exact drives.publishAny g _ _

/-- RPMS leaves the counter as it is or at 0 (R22). -/
theorem sampleRpm (g : Bool) (e : Nat) : (s.sampleRpm g e).2.Inv := by
  by_cases he : e = 0
  case pos => subst he; exact h.raise _
  case neg =>
    rw [s.sampleRpm_pos g he]
    have clears : ({ s with tcount := 0 } : State).Inv := { h with tcountFits := Nat.two_pow_pos _ }
    exact clears.publishAny g _ _

/-- A move of the ramp stays between the setpoint and the target, and turns the motor off only at 0 (R157, R160). -/
theorem rampMove {step : Int} (hstep : 0 ≤ step) (hm : s.motorOn = true) : (s.rampMove step).Inv := by
  have on : ∀ {p : Prop}, s.motorOn = false → p := fun off => absurd (off.symm.trans hm) Bool.false_ne_true
  obtain ⟨-, move⟩ | ⟨far, below, move⟩ | ⟨far, above, move⟩ := s.rampMove_cases step <;> rw [move]
  · refine { h with softFits := h.targetFits, stoppedHasZeroSoft := fun off => ?_ }
    by_contra notZero
    exact on ((if_neg notZero).symm.trans off)
  · rw [abs_of_neg (by omega)] at far
    exact
      { h with
        softFits := setpointFits_between h.softFits h.targetFits (by show s.soft ≤ s.soft + step; omega)
          (by show s.soft + step ≤ s.target; omega)
        stoppedHasZeroSoft := on }
  · rw [abs_of_nonneg (by omega)] at far
    exact
      { h with
        softFits := setpointFits_between h.targetFits h.softFits (by show s.target ≤ s.soft - step; omega)
          (by show s.soft - step ≤ s.soft; omega)
        stoppedHasZeroSoft := on }

/-- The target of a tick fits its register: it is the operator's or 0 (R154). -/
theorem rampTargetFits : setpointFits s.cfg s.rampTarget = true := by
  obtain same | zero := s.rampTarget_cases
  · rw [same]; exact h.targetFits
  · rw [zero]; exact setpointFits_zero _

end State.Inv

/-! ### The invariant under every operation -/

/-- RPMS that measured nothing hands back `SKIP` (R122). -/
theorem exec_rpms_of_skip {g : Bool} {e : Nat} {s t : State} (hs : s.openRes.sampleRpm g e = (none, t)) :
    exec (.rpms g e) s = .next (t.answer .skip) := by
  simp only [exec, execRpms, hs]

/-- SPDC that measured nothing hands back `SKIP` and goes no further (R140). -/
theorem exec_spdc_of_skip {g : Bool} {e : Nat} {ms : Int} {s t : State}
    (hs : s.openRes.sampleRpm g e = (none, t)) : exec (.spdc g e ms) s = .next (t.answer .skip) := by
  simp only [exec, execSpdc, hs]

section
variable {s t : State} (hs : s.Inv)
include hs

theorem exec_hedge_inv {x : Sensor} {l : Bool} (h : exec (.hedge x l) s = .next t) : t.Inv := by
  cases h
  exact { hs with tcountFits := countEdge_lt hs.tcountFits }

theorem exec_cwake_inv (h : exec .cwake s = .next t) : t.Inv := by
  cases hp : s.hallPending
  case true =>
    rw [exec_cwake_of_permit hp] at h
    cases h
    have taken : ({ s.openRes with hallPending := false } : State).Inv := { hs with }
    exact taken.commutate _
  case false =>
    rw [exec_cwake_of_no_permit hp] at h
    cases h
    exact hs.openRes.answer _

theorem exec_cpoll_inv {p : HallCode} (h : exec (.cpoll p) s = .next t) : t.Inv := by
  cases hp : s.hallPending
  case true => rw [exec_cpoll_of_permit p hp] at h; cases h; exact hs.openRes.answer _
  case false => rw [exec_cpoll_of_no_permit p hp] at h; cases h; exact hs.openRes.commutate p

theorem exec_rpms_inv {g : Bool} {e : Nat} (h : exec (.rpms g e) s = .next t) : t.Inv := by
  have sample := hs.openRes.sampleRpm g e
  rcases sampled : s.openRes.sampleRpm g e with ⟨_ | q, u⟩ <;> rw [sampled] at sample
  case none => rw [exec_rpms_of_skip sampled] at h; cases h; exact sample.answer _
  case some => rw [exec_rpms_of_sampleRpm sampled] at h; cases h; exact sample.answer _

theorem exec_spdc_inv {g : Bool} {e : Nat} {ms : Int} (h : exec (.spdc g e ms) s = .next t) : t.Inv := by
  have sample := hs.openRes.sampleRpm g e
  rcases sampled : s.openRes.sampleRpm g e with ⟨_ | q, u⟩ <;> rw [sampled] at sample
  case none => rw [exec_spdc_of_skip sampled] at h; cases h; exact sample.answer _
  case some =>
    rw [exec_spdc_of_sampleRpm sampled] at h
    cases h
    exact ((sample.runPid q ms).applyDuty g).answer _

theorem exec_rtick_inv (h : exec .rtick s = .next t) : t.Inv := by
  by_cases hr : s.motorOn = true ∨ 0 < s.target
  case pos =>
    rw [exec_rtick_of_running hr] at h
    cases h
    have starts : ({ s.openRes with motorOn := true, target := s.rampTarget } : State).Inv :=
      { hs with targetFits := hs.rampTargetFits, stoppedHasZeroSoft := nofun }
    exact starts.rampMove (State.rampStep_pos hs.cfgOk).1.le rfl
  case neg =>
    obtain ⟨off, notPositive⟩ := not_or.mp hr
    rw [exec_rtick_of_stopped (Bool.eq_false_of_not_eq_true off) (not_lt.mp notPositive)] at h
    cases h
    exact hs.openRes

theorem exec_adcp_inv {a b : Nat} (hw : (Instr.adcp a b).wellFormed s.cfg = true)
    (h : exec (.adcp a b) s = .next t) : t.Inv := by
  obtain ⟨fitsA, fitsB⟩ := (Bool.and_eq_true _ _).mp hw
  cases h
  refine { hs with ringBounded := ?bounded, samplesFit := fun p pushed => ?fit }
  case bounded => exact ringPush_length_le _ (one_le_rbCap hs.cfgOk) hs.ringBounded
  case fit =>
    obtain old | rfl := mem_ringPush pushed
    · exact hs.samplesFit p old
    · exact ⟨sampleFits_iff.mp fitsA, sampleFits_iff.mp fitsB⟩

theorem exec_monc_inv {g : Bool} (h : exec (.monc g) s = .next t) : t.Inv := by
  obtain ⟨frame, -, -, ring⟩ := monc_writesOnlyItsState h
  have queue : t.evq.length ≤ s.cfg.evqCap := by
    rw [exec_monc_evq h]
    split
    case isTrue notifies =>
      obtain ⟨-, -, room⟩ := notifies
      simpa using room
    case isFalse => exact hs.evqBounded
  rw [frame]
  obtain same | drained := ring
  · exact { hs with
            ringBounded := same ▸ hs.ringBounded, evqBounded := queue, samplesFit := same ▸ hs.samplesFit }
  · exact { hs with
            ringBounded := drained ▸ Nat.zero_le _, evqBounded := queue
            samplesFit := drained ▸ fun _ none => absurd none List.not_mem_nil }

theorem exec_evpop_inv (h : exec .evpop s = .next t) : t.Inv := by
  have queue : t.evq.length ≤ s.cfg.evqCap := by
    rw [exec_evpop_evq h]
    exact (List.drop_sublist 1 s.evq).length_le.trans hs.evqBounded
  rw [exec_frame h]
  exact { hs with evqBounded := queue }

/-- Every operation with its operands in range keeps the invariant. -/
theorem exec_inv {i : Instr} (hw : i.wellFormed s.cfg = true) (h : exec i s = .next t) : t.Inv := by
  cases i with
  | hedge x l => exact exec_hedge_inv hs h
  | cwake => exact exec_cwake_inv hs h
  | cpoll p => exact exec_cpoll_inv hs h
  | rpms g e => exact exec_rpms_inv hs h
  | pids m e => cases h; exact (hs.openRes.runPid m e).answer _
  | dapp g => cases h; exact hs.openRes.applyDuty g
  | spdc g a e => exact exec_spdc_inv hs h
  | rtick => exact exec_rtick_inv hs h
  | adcp a b => exact exec_adcp_inv hs hw h
  | monc g => exact exec_monc_inv hs h
  | tset v => cases h; exact { hs with targetFits := hw }
  | evpop => exact exec_evpop_inv hs h
  | reset => cases h; exact (State.Inv.of_initial hs.cfgOk).outside _ _ _ _
  | eset | eack | sget | sset | sfld => rw [exec_frame h]; exact { hs with }

/-- Every step that goes on keeps the invariant. -/
theorem step_inv (h : step s = .next t) : t.Inv := by
  obtain ⟨-, rfl⟩ | ⟨c, rest, -, ⟨-, rfl⟩ | ⟨i, -, hw, next⟩⟩ := step_cases h
  · exact hs
  · rw [State.illegalOp_eq]; exact hs.outside _ _ _ _
  · exact exec_inv (s := { s with env := rest }) (hs.outside _ _ _ _) hw next

end

end Sys2Proof.Machine

namespace Sys2Proof.Proofs

open Sys2Proof.Machine

/-- Settles O54: the parameters after reset are admissible, and every other item is R240's. -/
theorem invariantHoldsAtReset : Obligations.InvariantHoldsAtReset :=
  State.Inv.of_initial Config.chosen_ok

/-- Settles O55: a step is the wait, a reserved word or an operation, each of which keeps the invariant. -/
theorem everyStepKeepsTheInvariant : Obligations.EveryStepKeepsTheInvariant :=
  fun _ _ => step_inv

end Sys2Proof.Proofs
end

section
/-! The boundary of the command interface and the parameters: what a presented command does (30_encoding.md R80 to
R87), runs of any length (70_reset_and_hazards.md R263 to R265), the defaults (00_scope.md R8, R10), the status word
(10_state.md R28). -/

namespace Sys2Proof.Machine

open Sys2Proof.Claims

/-! ### A presented command -/

/-- A step takes the first command presented (R80). -/
theorem step_of_presented {s : State} {c : Command} {rest : List Command} (he : s.env = c :: rest) :
    step s = present c { s with env := rest } := by
  unfold step
  rw [State.takeCommand_cons he]

/-- A reserved word is answered `ILLEGAL_OP` (R85). -/
theorem present_of_reserved {c : Command} (hd : decode c = .error .reserved) (s : State) :
    present c s = .next (s.illegalOp c.op) := by
  unfold present; rw [hd]

/-- A port outside its operand's type is refused (R84). -/
theorem present_of_operandType {c : Command} {op : Op} (hd : decode c = .error (.operandType op)) (s : State) :
    present c s = .refused (.operandOutsideType op) := by
  unfold present; rw [hd]

/-- An operation with its operands in range is run (R80, R87). -/
theorem present_of_wellFormed {c : Command} {i : Instr} {s : State} (hd : decode c = .ok i)
    (hw : i.wellFormed s.cfg = true) : present c s = exec i s := by
  unfold present; rw [hd]; exact if_pos hw

/-- An operation with an operand outside its range is refused (R84). -/
theorem present_of_not_wellFormed {c : Command} {i : Instr} {s : State} (hd : decode c = .ok i)
    (hw : ¬i.wellFormed s.cfg = true) : present c s = .refused (.operandOutsideType i.op) := by
  unfold present; rw [hd]; exact if_neg hw

/-- No row selects a reserved word (R85). -/
theorem decode_of_reservedWord {c : Command} (hr : reservedWord c.op = true) : decode c = .error .reserved := by
  obtain ⟨selected, -⟩ := Proofs.opcodeMapSelectsSixtyThreeWords
  have none := selected c.op
  rw [if_pos hr, List.length_eq_zero_iff, List.filter_eq_nil_iff] at none
  exact decode_of_rowOf_none (List.find?_eq_none.mpr none)

/-! ### What the rows with typed ports do (R84) -/

/-- RPMS's words with what their port carries. -/
theorem decode_rpms {c : Command} (hop : c.op = 0x20 ∨ c.op = 0x21) :
    decode c = Op.RPMS.typed ((portNat c.a).map fun e => .rpms (c.op.getLsbD 0) e) := by
  obtain ⟨⟨low, high⟩, -⟩ := Laws.RowSelects.rowOf_words
  obtain word | word := hop
  · exact decode_of_rowOf (word ▸ low)
  · exact decode_of_rowOf (word ▸ high)

/-- PIDS's word with what its ports carry. -/
theorem decode_pids {c : Command} (hop : c.op = 0x22) :
    decode c = Op.PIDS.typed ((portInt c.b).map fun ms => .pids c.a ms) := by
  obtain ⟨-, row, -⟩ := Laws.RowSelects.rowOf_words
  exact decode_of_rowOf (hop ▸ row)

/-- SPDC's words with what their ports carry. -/
theorem decode_spdc {c : Command} (hop : c.op = 0x26 ∨ c.op = 0x27) :
    decode c =
      Op.SPDC.typed ((portNat c.a).bind fun e => (portInt c.b).map fun ms => .spdc (c.op.getLsbD 0) e ms) := by
  obtain ⟨-, -, ⟨low, high⟩, -⟩ := Laws.RowSelects.rowOf_words
  obtain word | word := hop
  · exact decode_of_rowOf (word ▸ low)
  · exact decode_of_rowOf (word ▸ high)

/-- ADCP's word with what its ports carry. -/
theorem decode_adcp {c : Command} (hop : c.op = 0x40) :
    decode c = Op.ADCP.typed ((portNat c.a).bind fun a => (portNat c.b).map fun b => .adcp a b) := by
  obtain ⟨-, -, -, row, -⟩ := Laws.RowSelects.rowOf_words
  exact decode_of_rowOf (hop ▸ row)

/-- TSET's word with what its port carries. -/
theorem decode_tset {c : Command} (hop : c.op = 0x50) :
    decode c = Op.TSET.typed ((portInt c.a).map fun v => .tset v) := by
  obtain ⟨-, -, -, -, row⟩ := Laws.RowSelects.rowOf_words
  exact decode_of_rowOf (hop ▸ row)

/-- SPDC needs a natural number on port `a` and an integer on port `b`. -/
theorem present_spdc_of_untyped {c : Command} (s : State) (hop : c.op = 0x26 ∨ c.op = 0x27)
    (bad : (∀ n : Nat, c.a ≠ n) ∨ ∀ v : Int, c.b ≠ v) : present c s = .refused (.operandOutsideType .SPDC) := by
  refine present_of_operandType ?_ s
  rw [decode_spdc hop]
  obtain notNat | notInt := bad
  · rw [portNat_eq_none.mpr notNat]; rfl
  · rw [portInt_eq_none.mpr notInt]; cases portNat c.a <;> rfl

/-- A sample that is no natural number, or is above `ADCMAX`, cannot be presented. -/
theorem present_adcp_of_outside {c : Command} {s : State} (hop : c.op = 0x40)
    (bad : (¬∃ n : Nat, c.a = n ∧ n ≤ s.cfg.adcMax) ∨ ¬∃ n : Nat, c.b = n ∧ n ≤ s.cfg.adcMax) :
    present c s = .refused (.operandOutsideType .ADCP) := by
  have decoded := decode_adcp hop
  rcases codeA : portNat c.a with _ | a <;> rcases codeB : portNat c.b with _ | b <;>
    rw [codeA, codeB] at decoded
  case some.some =>
    refine present_of_not_wellFormed decoded fun fits => ?_
    obtain ⟨fitsA, fitsB⟩ := (Bool.and_eq_true _ _).mp fits
    obtain badA | badB := bad
    · exact badA ⟨a, portNat_eq_some codeA, sampleFits_iff.mp fitsA⟩
    · exact badB ⟨b, portNat_eq_some codeB, sampleFits_iff.mp fitsB⟩
  all_goals exact present_of_operandType decoded s

/-- A setpoint that is no integer, or is outside `RPM_BITS`, cannot be presented. -/
theorem present_tset_of_outside {c : Command} {s : State} (hop : c.op = 0x50)
    (bad : ¬∃ v : Int, c.a = v ∧ -(2 ^ (s.cfg.rpmBits - 1) : Int) ≤ v ∧ v < (2 ^ (s.cfg.rpmBits - 1) : Int)) :
    present c s = .refused (.operandOutsideType .TSET) := by
  have decoded := decode_tset hop
  rcases value : portInt c.a with _ | v <;> rw [value] at decoded
  case none => exact present_of_operandType decoded s
  case some =>
    exact present_of_not_wellFormed decoded fun fits => bad ⟨v, portInt_eq_some value, setpointFits_iff.mp fits⟩

/-! ### Runs of any length -/

/-- A command that can be presented has an effect (R84, R265). -/
theorem present_next {c : Command} {s : State} (hp : presentable s.cfg c = true) :
    ∃ t : State, present c s = .next t ∧ t.cfg = s.cfg ∧ t.env = s.env := by
  rcases hd : decode c with (_ | op) | i <;> simp only [presentable, hd] at hp
  case error.reserved => exact ⟨_, present_of_reserved hd s, rfl, rfl⟩
  case error.operandType => cases hp
  case ok =>
    obtain ⟨t, next⟩ := exec_next i s
    exact ⟨t, (present_of_wellFormed hd hp).trans next, exec_keeps_cfg_env next⟩

/-- A step goes on while what is presented can be presented, and what is presented next can be too (R263). -/
theorem step_next {s : State} (hp : s.envPresentable = true) :
    ∃ t : State, step s = .next t ∧ t.envPresentable = true := by
  obtain ⟨-, next⟩ | ⟨c, rest, he, next⟩ := step_eq s
  · exact ⟨s, next, hp⟩
  · rw [State.envPresentable, he, List.all_cons, Bool.and_eq_true] at hp
    obtain ⟨first, others⟩ := hp
    obtain ⟨t, effect, cfg, env⟩ := present_next (s := { s with env := rest }) first
    refine ⟨t, next.trans effect, ?_⟩
    rw [State.envPresentable, cfg, env]
    exact others

end Sys2Proof.Machine

namespace Sys2Proof.Proofs

open Sys2Proof.Machine Sys2Proof.Claims

/-- Settles O7: the step takes the command, and no row selects its word. -/
theorem reservedWordsRaiseIllegalOp : Obligations.ReservedWordsRaiseIllegalOp := by
  intro s c rest he hr
  rw [step_of_presented he, present_of_reserved (decode_of_reservedWord hr), State.illegalOp_eq]

/-- Settles O8, by the word: its row reads a typed port, which carries no value of the type or one out of range. -/
theorem operandsOutsideTheirTypeAreRefused : Obligations.OperandsOutsideTheirTypeAreRefused := by
  intro s c rest he
  rw [step_of_presented he]
  refine ⟨fun hop bad => ?rpms, fun hop bad => ?pids, present_spdc_of_untyped _,
    present_adcp_of_outside (s := { s with env := rest }), present_tset_of_outside (s := { s with env := rest })⟩
  case rpms =>
    refine present_of_operandType ?_ _
    rw [decode_rpms hop, portNat_eq_none.mpr bad]; rfl
  case pids =>
    refine present_of_operandType ?_ _
    rw [decode_pids hop, portInt_eq_none.mpr bad]; rfl

/-- Settles O5: the step takes the command, which is the operation. -/
theorem stepRunsThePresentedOperation : Obligations.StepRunsThePresentedOperation := by
  intro s c rest i he hd hw
  rw [step_of_presented he]
  exact present_of_wellFormed hd hw

/-- Settles O6: with nothing presented there is no command to take. -/
theorem stepWithNothingPresentedChangesNothing : Obligations.StepWithNothingPresentedChangesNothing := by
  intro s he
  unfold step
  rw [State.takeCommand_nil he]

/-- Settles O56, by induction on the number of steps: `step_next` keeps the premise. -/
theorem presentableRunsNeverStop : Obligations.PresentableRunsNeverStop := by
  intro n
  induction n with
  | zero => exact fun s _ => ⟨s, rfl⟩
  | succ n ih =>
    intro s hp
    obtain ⟨t, next, hp'⟩ := step_next hp
    obtain ⟨u, run⟩ := ih t hp'
    exact ⟨u, by simp only [steps, next, run]⟩

/-- Settles O57: the parameters after reset have the defaults, and `exec_keeps_cfg_env` keeps the record. -/
theorem configurationHasItsDefaults : Obligations.ConfigurationHasItsDefaults := by
  refine ⟨{}, Config.chosen_given, rfl, rfl, rfl, rfl, rfl, rfl, rfl, rfl, rfl, rfl, rfl, rfl, rfl, rfl, rfl,
    fun i s t h => ?record⟩
  case record =>
    obtain ⟨cfg, -⟩ := exec_keeps_cfg_env h
    rw [cfg]

/-- Settles O9: the width is one more than the binary logarithm of `ADCMAX`. -/
theorem adcBitsIsTheLeastWidth : Obligations.AdcBitsIsTheLeastWidth := by
  intro c hpos
  refine ⟨Nat.lt_log2_self, fun n hn => ?least⟩
  case least => exact (Nat.log2_lt hpos.ne').mpr hn

/-- Settles O10: the word is the concatenation of its eight bits. -/
theorem statusWordHoldsTheSixFlags : Obligations.StatusWordHoldsTheSixFlags := by
  intro s
  simp only [State.status, BitVec.getLsbD_append, BitVec.getLsbD_ofBool]
  simp

end Sys2Proof.Proofs
end

section
/-! Hall edges, commutation and the speed task: CPOLL, the edges of one sample, PIDS's normal case, SPDC
(40_hall_commutation.md R102 to R105, 41_rpm_estimator.md R122, 42_pid_controller.md R135 to R140). -/

namespace Sys2Proof.Machine

open Sys2Proof.Claims

/-! ### Edges counted one by one -/

/-- Below its maximum the counter counts (R101). -/
theorem countEdge_of_room {c : Config.Params} {n : Nat} (hn : n + 1 < 2 ^ c.ctrBits) : countEdge c n = n + 1 := by
  unfold countEdge Config.Params.tcountMax
  rw [if_pos (by omega)]

/-- Edges that do not saturate the counter are all counted (R22, R101). -/
theorem runs_hedges (edges : List (Sensor × Bool)) {s : State} (room : s.tcount + edges.length < 2 ^ s.cfg.ctrBits) :
    ∃ t : State, runs (edges.map fun p => .hedge p.1 p.2) s = .next t ∧ t.cfg = s.cfg ∧
      t.tcount = s.tcount + edges.length := by
  induction edges generalizing s with
  | nil => exact ⟨s, rfl, rfl, rfl⟩
  | cons p edges ih =>
    rw [List.length_cons] at room
    have counted : countEdge s.cfg s.tcount = s.tcount + 1 := countEdge_of_room (by omega)
    rw [List.map_cons, runs_cons (exec_hedge p.1 p.2 s), counted]
    obtain ⟨t, run, cfg, count⟩ :=
      ih (s := { s.openRes with hall := setHallBit s.hall p.1 p.2, tcount := s.tcount + 1, hallPending := true })
        (by show s.tcount + 1 + edges.length < 2 ^ s.cfg.ctrBits; omega)
    exact ⟨t, run, cfg, count.trans (by rw [List.length_cons]; show s.tcount + 1 + _ = _; omega)⟩

/-! ### The normal case of PIDS -/

/-- The clamp of the output against 0 and then against `PERIOD`, and `floor` last (R137). -/
theorem saturate_eq_floor (c : Config.Params) {out low clamped : Rat}
    (hl : low = if out < 0 then (c.given.minFloor : Rat) else out)
    (hc : clamped = if low > c.period then (c.period : Rat) else low) : saturate c out = ⌊clamped⌋ := by
  subst hl hc
  rfl

/-! ### SPDC -/

/-- The skip (R140, R217). -/
theorem exec_spdc_zero (g : Bool) (ms : Int) (s : State) :
    exec (.spdc g 0 ms) s = .next { s with res := ⟨.skip, [.rpmZeroElapsed]⟩ } := rfl

/-- PIDS and then DAPP on a state whose result port is not empty add their exceptions to those on it, and do otherwise
what they do on an empty one (R140, R231). -/
theorem applyDuty_runPid_openRes (s : State) (g : Bool) (m : Rat) (e : Int) :
    (s.runPid m e).2.applyDuty g =
      { (s.openRes.runPid m e).2.openRes.applyDuty g with
        res :=
          ⟨s.res.result,
            s.res.raised ++ (s.openRes.runPid m e).2.res.raised ++
              ((s.openRes.runPid m e).2.openRes.applyDuty g).res.raised⟩ } := by
  obtain ⟨-, control⟩ := s.runPid_openRes m e
  rw [control, State.applyDuty_openRes]
  rfl

end Sys2Proof.Machine

namespace Sys2Proof.Proofs

open Sys2Proof.Machine Sys2Proof.Claims

/-- Settles O16, by the permit and then the motor. -/
theorem cpollCommutatesOnThePins : Obligations.CpollCommutatesOnThePins := by
  intro p s
  refine ⟨fun hp hm => ?motorOn, fun hp hm => ?motorOff, fun hp => ?permit⟩
  case motorOn =>
    rw [exec_cpoll_of_no_permit p hp]
    exact congrArg Host.Outcome.next (State.commutate_on p hm)
  case motorOff =>
    rw [exec_cpoll_of_no_permit p hp]
    exact congrArg Host.Outcome.next (State.commutate_off p hm)
  case permit => exact exec_cpoll_of_permit p hp

/-- Settles O17, by the motor: what `commutate` writes depends on the motor flag and the code, which it leaves, and on
the enable port, which the first commutation has switched. -/
theorem commutationIsIdempotent : Obligations.CommutationIsIdempotent := by
  intro s h
  cases hm : s.motorOn
  case false =>
    rw [State.commutate_off h hm]
    exact State.commutate_off h hm
  case true =>
    rw [State.commutate_on h hm]
    exact State.commutate_on h hm

/-- Settles O18: the edges are counted (`runs_hedges`), then RPMS takes the count and clears it. -/
theorem everyEdgeIsCountedInOneSample : Obligations.EveryEdgeIsCountedInOneSample := by
  intro edges s g e room he
  obtain ⟨t, run, cfg, count⟩ := runs_hedges edges room
  rw [runs_append run, runs_cons (exec_rpms_pos g he t)]
  refine ⟨_, rfl, ?cleared, ?rpm⟩
  case cleared => cases g <;> rfl
  case rpm =>
    have formula := rpmOf_eq_div t.cfg t.tcount e
    rw [cfg, count, Nat.cast_add] at formula
    rw [cfg, count]
    exact congrArg Result.rpm formula

/-- Settles O22: the premises name the parts of `State.pidNormal`, whose duty is `saturate_eq_floor`. -/
theorem pidsNormalCase : Obligations.PidsNormalCase := by
  intro m e s err integ deriv out low clamped running hm hvalid he herr hinteg hderiv hout hlow hclamped
  have duty := saturate_eq_floor s.cfg hlow hclamped
  subst herr hinteg hderiv hout
  rw [exec_pids_of_runPid (s.openRes.runPid_normal running hm he hvalid), ← duty]
  rfl

/-- Settles O23: the two outcomes of `State.runPid_outcome` on an empty result port. -/
theorem pidsHandsBackErrOrADuty : Obligations.PidsHandsBackErrOrADuty := by
  intro m e s hc
  refine ⟨_, rfl, ?_⟩
  obtain ⟨result, flag, duty, res⟩ | ⟨result, flag, res, inRange⟩ := State.runPid_outcome (s := s.openRes) hc m e
  · refine .inl ⟨?_, flag, duty⟩
    show Response.mk _ _ = _
    rw [result, res]
    rfl
  · refine .inr ⟨?_, flag, inRange⟩
    show Response.mk _ _ = _
    rw [result, res]
    rfl

/-- Settles O25: SPDC runs PIDS and DAPP on a result port that already holds RPMS's part, which
`applyDuty_runPid_openRes` compares with the three operations on ports of their own. -/
theorem spdcIsRpmsThenPidsThenDapp : Obligations.SpdcIsRpmsThenPidsThenDapp := by
  intro g a b s
  refine ⟨fun ha => ?parts, fun ha => ?skip⟩
  case parts =>
    obtain ⟨u, sampled⟩ : ∃ u, s.openRes.sampleRpm g a = (some (rpmOf s.cfg s.tcount a), u) :=
      ⟨_, s.openRes.sampleRpm_pos g ha⟩
    refine ⟨_, _, _, rpmOf s.cfg s.tcount a, _, exec_rpms_of_sampleRpm sampled, rfl, rfl, rfl, rfl, rfl, ?_⟩
    rw [exec_spdc_of_sampleRpm sampled, applyDuty_runPid_openRes, (State.runPid_openRes _ _ _).1]
    rfl
  case skip => subst ha; exact exec_spdc_zero g b s

end Sys2Proof.Proofs
end

section
/-! The soft ramp over one tick and over many (43_soft_ramp.md R152 to R157, 60_exceptions.md R221). -/

namespace Sys2Proof.Machine

open Sys2Proof.Claims

/-! ### One move -/

/-- A move takes one step off the distance to the target, or what is left of it (R157). -/
theorem State.rampMove_distance (s : State) (step : Int) :
    |(s.rampMove step).soft - s.target| = max 0 (|s.soft - s.target| - step) := by
  obtain ⟨near, move⟩ | ⟨far, below, move⟩ | ⟨far, above, move⟩ := s.rampMove_cases step <;> simp only [move]
  · rw [sub_self, abs_zero, max_eq_left (by omega)]
  · rw [abs_of_neg (by omega)] at far ⊢
    rw [abs_of_neg (by omega)]
    omega
  · rw [abs_of_nonneg (by omega)] at far ⊢
    rw [abs_of_nonneg (by omega)]
    omega

/-- A move does not leave the interval between the setpoint and the target (R157). -/
theorem State.rampMove_between (s : State) {step : Int} (hstep : 0 ≤ step) :
    min s.soft s.target ≤ (s.rampMove step).soft ∧ (s.rampMove step).soft ≤ max s.soft s.target := by
  obtain ⟨-, move⟩ | ⟨far, below, move⟩ | ⟨far, above, move⟩ := s.rampMove_cases step <;> simp only [move]
  · exact ⟨min_le_right _ _, le_max_right _ _⟩
  · rw [abs_of_neg (by omega)] at far
    omega
  · rw [abs_of_nonneg (by omega)] at far
    omega

/-- A move changes the setpoint by at most the step. -/
theorem State.rampMove_le_step (s : State) {step : Int} (hstep : 0 ≤ step) :
    |(s.rampMove step).soft - s.soft| ≤ step := by
  obtain ⟨near, move⟩ | ⟨-, -, move⟩ | ⟨-, -, move⟩ := s.rampMove_cases step <;> simp only [move]
  · rwa [abs_sub_comm]
  · rw [add_sub_cancel_left, abs_of_nonneg hstep]
  · rw [sub_sub_cancel_left, abs_neg, abs_of_nonneg hstep]

/-! ### One tick -/

/-- The state between steps 3 and 4 of a tick that runs: the motor on, the target the tick's (R152). -/
def State.tickStart (s : State) : State := { s.openRes with motorOn := true, target := s.rampTarget }

@[simp] theorem State.tickStart_soft (s : State) : s.tickStart.soft = s.soft := rfl
@[simp] theorem State.tickStart_target (s : State) : s.tickStart.target = s.rampTarget := rfl

/-- A tick that runs moves the ramp from there (R152). -/
theorem exec_rtick_eq_move {s : State} (hr : s.motorOn = true ∨ 0 < s.target) :
    exec .rtick s = .next (s.tickStart.rampMove s.rampStep) := exec_rtick_of_running hr

/-- A move writes the setpoint and the motor flag alone, so the target is still the tick's. -/
@[simp] theorem State.rampMove_target (s : State) (step : Int) : (s.rampMove step).target = s.target := by
  rw [s.rampMove_frame step]

/-- A tick runs, or stops at step 1 (R152). -/
theorem tick_runs_or_stops (s : State) :
    (s.motorOn = true ∨ 0 < s.target) ∨ (s.motorOn = false ∧ s.target ≤ 0) := by
  cases s.motorOn <;> simp [lt_or_ge]

/-- A tick keeps the E-Stop flag and the parameters. -/
theorem exec_rtick_keeps {s t : State} (h : exec .rtick s = .next t) : t.estop = s.estop ∧ t.cfg = s.cfg := by
  rw [exec_frame h]
  exact ⟨rfl, rfl⟩

theorem State.rampTarget_of_estop {s : State} (he : s.estop = true) : s.rampTarget = 0 := if_pos he

theorem State.rampTarget_of_no_estop {s : State} (he : s.estop = false) : s.rampTarget = s.target :=
  if_neg (Bool.eq_false_iff.mp he)

theorem State.rampStep_of_estop {s : State} (he : s.estop = true) : s.rampStep = s.cfg.given.stepEstop := if_pos he

theorem State.rampStep_of_no_estop {s : State} (he : s.estop = false) : s.rampStep = s.cfg.given.stepNormal :=
  if_neg (Bool.eq_false_iff.mp he)

/-! ### Many ticks toward a fixed target -/

/-- The ramp still moves, or has nowhere to go: what ticks without E-Stop keep. -/
def State.Ramping (s : State) : Prop := (s.motorOn = true ∨ 0 < s.target) ∨ s.soft = s.target

/-- One tick without E-Stop takes a step off the distance to the target and keeps the target (R157). -/
theorem exec_rtick_ramping {s : State} (hc : s.cfg.ok) (he : s.estop = false) (hr : s.Ramping) :
    ∃ t : State, exec .rtick s = .next t ∧ t.target = s.target ∧ t.Ramping ∧
      |t.soft - s.target| = max 0 (|s.soft - s.target| - s.cfg.given.stepNormal) := by
  have target := State.rampTarget_of_no_estop he
  rcases tick_runs_or_stops s with runs | ⟨off, notPositive⟩
  · have distance := s.tickStart.rampMove_distance s.rampStep
    rw [s.tickStart_target, s.tickStart_soft, target, State.rampStep_of_no_estop he] at distance
    refine ⟨_, exec_rtick_eq_move runs, ?target, ?ramping, ?distance⟩
    case target => rw [State.rampMove_target, State.tickStart_target, target]
    case distance => rw [State.rampStep_of_no_estop he]; exact distance
    case ramping =>
      obtain ⟨-, move⟩ | ⟨-, -, move⟩ | ⟨-, -, move⟩ := s.tickStart.rampMove_cases s.rampStep <;> rw [move]
      · exact .inr rfl
      · exact .inl (.inl rfl)
      · exact .inl (.inl rfl)
  · have arrived : s.soft = s.target := by
      obtain (on | positive) | same := hr
      · exact absurd (off.symm.trans on) Bool.false_ne_true
      · exact absurd positive notPositive.not_gt
      · exact same
    refine ⟨_, exec_rtick_of_stopped off notPositive, rfl, .inr arrived, ?_⟩
    have step := (Config.Params.steps_pos hc).1
    rw [State.openRes_soft, arrived, sub_self, abs_zero, max_eq_left (by omega)]

/-- After `n` ticks without E-Stop the distance to the target is `n` steps less, or 0 (R157). -/
theorem runs_rtick_ramping (n : Nat) {s : State} (hc : s.cfg.ok) (he : s.estop = false) (hr : s.Ramping) :
    ∃ t : State, runs (List.replicate n .rtick) s = .next t ∧ t.target = s.target ∧
      |t.soft - s.target| = max 0 (|s.soft - s.target| - s.cfg.given.stepNormal * n) := by
  have step := (Config.Params.steps_pos hc).1
  induction n generalizing s with
  | zero => exact ⟨s, rfl, rfl, by simp⟩
  | succ n ih =>
    obtain ⟨t, next, target, ramping, first⟩ := exec_rtick_ramping hc he hr
    obtain ⟨estop, cfg⟩ := exec_rtick_keeps next
    obtain ⟨u, run, target', rest⟩ := ih (cfg ▸ hc) (estop.trans he) ramping (cfg ▸ step)
    refine ⟨u, ?run, target'.trans target, ?distance⟩
    case run => rw [List.replicate_succ, runs_cons next, run]
    case distance =>
      have nonneg : 0 ≤ s.cfg.given.stepNormal * n := by positivity
      rw [cfg, target, first] at rest
      rw [rest, Nat.cast_succ, mul_add_one]
      omega

/-! ### The emergency ramp-down -/

/-- With the motor off at the target 0 a tick changes nothing of the ramp (R152 step 1). -/
theorem runs_rtick_stopped (n : Nat) {s : State} (hm : s.motorOn = false) (hz : s.soft = 0) (ht : s.target = 0) :
    ∃ t : State, runs (List.replicate n .rtick) s = .next t ∧ t.motorOn = false ∧ t.soft = 0 ∧ t.target = 0 := by
  refine runs_keeps (P := fun u => u.motorOn = false ∧ u.soft = 0 ∧ u.target = 0) ⟨hm, hz, ht⟩ ?_
  intro i hi u v next ⟨off, zero, target⟩
  rw [List.eq_of_mem_replicate hi, exec_rtick_of_stopped off target.le] at next
  cases next
  exact ⟨off, zero, target⟩

/-- Under E-Stop a tick within one step of 0 ends there, with the motor off (R152 step 4, R221). -/
theorem exec_rtick_estop_near {s : State} (he : s.estop = true) (hm : s.motorOn = true)
    (near : |s.soft| ≤ s.cfg.given.stepEstop) :
    ∃ t : State, exec .rtick s = .next t ∧ t.motorOn = false ∧ t.soft = 0 ∧ t.target = 0 := by
  have zero : s.tickStart.target = 0 := State.rampTarget_of_estop he
  have within : |s.tickStart.soft - s.tickStart.target| ≤ s.rampStep := by
    rwa [zero, s.tickStart_soft, sub_zero, State.rampStep_of_estop he]
  rw [exec_rtick_eq_move (.inl hm), State.rampMove_of_within within]
  exact ⟨_, rfl, if_pos zero, zero, zero⟩

/-- Under E-Stop a tick farther than one step from 0 takes that step, with the motor on (R152 step 5, R221). -/
theorem exec_rtick_estop_far {s : State} (he : s.estop = true) (hm : s.motorOn = true)
    (far : s.cfg.given.stepEstop < |s.soft|) :
    ∃ t : State, exec .rtick s = .next t ∧ t.motorOn = true ∧ |t.soft| = |s.soft| - s.cfg.given.stepEstop := by
  have distance := s.tickStart.rampMove_distance s.rampStep
  rw [s.tickStart_target, s.tickStart_soft, State.rampTarget_of_estop he, sub_zero, sub_zero,
    State.rampStep_of_estop he, max_eq_right (by omega)] at distance
  refine ⟨_, exec_rtick_eq_move (.inl hm), ?on, by rwa [State.rampStep_of_estop he]⟩
  case on =>
    obtain ⟨near, -⟩ | ⟨-, -, move⟩ | ⟨-, -, move⟩ := s.tickStart.rampMove_cases s.rampStep
    · rw [s.tickStart_target, s.tickStart_soft, State.rampTarget_of_estop he, sub_zero,
        State.rampStep_of_estop he] at near
      exact absurd near far.not_ge
    · rw [move]; rfl
    · rw [move]; rfl

/-- Under E-Stop a motor that is on is still on after `n` ticks while `n` emergency steps do not cover the distance to
0, and is off at 0 once they do (R221). -/
theorem runs_rtick_estop (n : Nat) {s : State} (he : s.estop = true) (hm : s.motorOn = true) :
    ∃ t : State, runs (List.replicate n .rtick) s = .next t ∧
      (n = 0 ∨ s.cfg.given.stepEstop * n < |s.soft| → t.motorOn = true) ∧
      (n ≠ 0 → |s.soft| ≤ s.cfg.given.stepEstop * n → t.motorOn = false ∧ t.soft = 0 ∧ t.target = 0) := by
  induction n generalizing s with
  | zero => exact ⟨s, rfl, fun _ => hm, fun h => absurd rfl h⟩
  | succ n ih =>
    rw [List.replicate_succ, Nat.cast_succ, mul_add_one]
    obtain near | far := le_or_gt |s.soft| s.cfg.given.stepEstop
    · obtain ⟨t, next, off, zero, target⟩ := exec_rtick_estop_near he hm near
      obtain ⟨u, run, stopped⟩ := runs_rtick_stopped n off zero target
      rw [runs_cons next]
      have covered : 0 ≤ s.cfg.given.stepEstop * n := mul_nonneg ((abs_nonneg _).trans near) n.cast_nonneg
      exact ⟨u, run, fun notYet => by omega, fun _ _ => stopped⟩
    · obtain ⟨t, next, on, closer⟩ := exec_rtick_estop_far he hm far
      obtain ⟨estop, cfg⟩ := exec_rtick_keeps next
      obtain ⟨u, run, stillOn, off⟩ := ih (estop.trans he) on
      rw [cfg, closer] at stillOn off
      rw [runs_cons next]
      refine ⟨u, run, fun notYet => stillOn (by omega), fun _ covered => off ?_ (by omega)⟩
      rintro rfl
      simp only [Nat.cast_zero, mul_zero] at covered
      omega

/-- The ceiling of distance over step is the number of steps that cover the distance (R221). -/
theorem ceil_div_le_iff {d step : Int} {n : Nat} (hstep : 0 < step) :
    ⌈(d : Rat) / step⌉ ≤ (n : Int) ↔ d ≤ step * n := by
  rw [Int.ceil_le, div_le_iff₀ (by exact_mod_cast hstep), mul_comm]
  exact_mod_cast Iff.rfl

end Sys2Proof.Machine

namespace Sys2Proof.Proofs

open Sys2Proof.Machine Sys2Proof.Claims

/-- Settles O28, by whether the tick runs: a tick that stops moves nothing, a tick that runs makes one move. -/
theorem rtickNeverOvershoots : Obligations.RtickNeverOvershoots := by
  intro s hc
  obtain ⟨step, stepLe⟩ := State.rampStep_pos hc
  rcases tick_runs_or_stops s with runs | ⟨off, notPositive⟩
  · have distance := s.tickStart.rampMove_distance s.rampStep
    have between := s.tickStart.rampMove_between step.le
    have target : (s.tickStart.rampMove s.rampStep).target = s.rampTarget := State.rampMove_target _ _
    refine ⟨_, exec_rtick_eq_move runs, (s.tickStart.rampMove_le_step step.le).trans stepLe,
      fun _ => ⟨?distance, ?between⟩, fun he => ?noEstop⟩
    case distance => rw [target]; exact distance
    case between => rw [target]; exact between
    case noEstop =>
      have same := State.rampTarget_of_no_estop he
      rw [s.tickStart_target, s.tickStart_soft, same] at distance
      refine ⟨target.trans same, ?_⟩
      rw [target, same, distance]
      exact max_le (abs_nonneg _) (by omega)
  · have still : |s.openRes.soft - s.soft| ≤ s.cfg.given.stepEstop := by
      rw [s.openRes_soft, sub_self, abs_zero]
      omega
    refine ⟨_, exec_rtick_of_stopped off notPositive, still, fun runs => ?_, fun _ => ⟨rfl, le_rfl⟩⟩
    obtain on | positive := runs
    · exact absurd (off.symm.trans on) Bool.false_ne_true
    · exact absurd positive notPositive.not_gt

/-- Settles O29: a ramp that runs is `State.Ramping`. -/
theorem rampReachesTheTargetAndStays : Obligations.RampReachesTheTargetAndStays :=
  fun _ n hc he hr => runs_rtick_ramping n hc he (.inl hr)

/-- Settles O30: `ticks` is the least positive number of emergency steps that cover the distance to 0
(`ceil_div_le_iff`), and `runs_rtick_estop` says what the ramp is before and from then on. -/
theorem emergencyRampDownTakesTheStatedTicks : Obligations.EmergencyRampDownTakesTheStatedTicks := by
  intro s n ticks hc he hm hticks
  obtain ⟨normal, larger⟩ := Config.Params.steps_pos hc
  have covers := ceil_div_le_iff (d := |s.soft|) (n := n) (normal.trans_le larger)
  obtain ⟨t, run, on, off⟩ := runs_rtick_estop n he hm
  refine ⟨t, run, fun before => on ?_, fun after => ?_⟩
  · obtain zero | positive := n.eq_zero_or_pos
    · exact .inl zero
    · exact .inr (not_le.mp fun covered => by have := covers.mpr covered; omega)
  · exact off (by omega) (covers.mp (by omega))

/-- Settles O31: the tick runs with the target 0, which the setpoint already has. -/
theorem motorDoesNotStartUnderEstop : Obligations.MotorDoesNotStartUnderEstop := by
  intro s hc hm hz ht he
  have zero : s.rampTarget = 0 := State.rampTarget_of_estop he
  have within : |s.tickStart.soft - s.tickStart.target| ≤ s.rampStep := by
    rw [s.tickStart_soft, s.tickStart_target, hz, zero, sub_self, abs_zero]
    exact (State.rampStep_pos hc).1.le
  rw [exec_rtick_eq_move (.inr ht), State.rampMove_of_within within]
  simp [State.tickStart, State.openRes, zero, hz, hm]

end Sys2Proof.Proofs
end

section
/-! The sample ring under many pushes, and the cycle of the monitor (20_memory.md R62, R63, 44_current_monitor.md R166
to R177). -/

namespace Sys2Proof.Machine

open Sys2Proof.Claims

/-! ### Pushes -/

/-- ADCP is a push of its pair (R165). -/
theorem exec_adcp (a b : Nat) (s : State) :
    exec (.adcp a b) s = .next { s.openRes with ring := ringPush s.cfg.rbCap s.ring ⟨a, b⟩ } := rfl


/-- Any pushes keep the newest pairs in order and change nothing else (R63). -/
theorem runs_adcps (xs : List Sample) {s : State} (hc : 1 ≤ s.cfg.rbCap) (hr : s.ring.length ≤ s.cfg.rbCap) :
    ∃ t : State, runs (xs.map fun p => .adcp p.a p.b) s = .next t ∧
      t.ring = (s.ring ++ xs).drop (s.ring.length + xs.length - s.cfg.rbCap) ∧
      t = { s with ring := t.ring, res := t.res } := by
  induction xs generalizing s with
  | nil => exact ⟨s, rfl, by simp [Nat.sub_eq_zero_of_le hr], rfl⟩
  | cons x xs ih =>
    rw [List.map_cons, runs_cons (exec_adcp x.a x.b s)]
    obtain ⟨t, run, ring, frame⟩ :=
      ih (s := { s.openRes with ring := ringPush s.cfg.rbCap s.ring x }) hc (ringPush_length_le x hc hr)
    refine ⟨t, run, ?ring, frame⟩
    case ring =>
      have pushed : t.ring = (ringPush s.cfg.rbCap s.ring x ++ xs).drop
          ((ringPush s.cfg.rbCap s.ring x).length + xs.length - s.cfg.rbCap) := ring
      have taken : s.ring.length + 1 - s.cfg.rbCap ≤ (s.ring ++ [x]).length := by simp
      rw [pushed, ringPush_eq_drop x hc hr, ← List.drop_append_of_le_length taken, List.drop_drop, List.append_assoc,
        List.singleton_append, List.length_drop, List.length_append, List.length_singleton, List.length_cons]
      congr 1
      omega

/-- Any pushes after a first one leave a pair in the ring, and the store and the parameters as they were. -/
theorem runs_adcps_nonempty {xs : List Sample} (hx : xs ≠ []) (s : State) :
    ∃ t : State, runs (xs.map fun p => .adcp p.a p.b) s = .next t ∧ t.ring ≠ [] ∧ t.store = s.store ∧
      t.cfg = s.cfg := by
  obtain ⟨x, xs, rfl⟩ := List.exists_cons_of_ne_nil hx
  rw [List.map_cons, runs_cons (exec_adcp x.a x.b s)]
  refine runs_keeps (P := fun u => u.ring ≠ [] ∧ u.store = s.store ∧ u.cfg = s.cfg)
    ⟨List.append_ne_nil_of_right_ne_nil _ (List.cons_ne_nil _ _), rfl, rfl⟩ ?_
  rintro i hi u v next ⟨-, store, cfg⟩
  obtain ⟨p, -, rfl⟩ := List.mem_map.mp hi
  rw [exec_adcp] at next
  cases next
  exact ⟨List.append_ne_nil_of_right_ne_nil _ (List.cons_ne_nil _ _), store, cfg⟩

/-! ### The cycle -/

/-- The settling phase ignores a reading exactly while it lasts and the reading is below the limit (R175). -/
theorem ignoredWhileSettling_iff {settling : Bool} {imA limit : Rat} :
    ignoredWhileSettling settling imA limit = true ↔ settling = true ∧ imA < limit := by
  simp [ignoredWhileSettling]

/-- The cycle of the monitor, item by item (R167): the comparison of its current with the limit it finds decides the
trip, the settling phase the clobber, the grant the publish. -/
theorem State.monitorCycle_eq (s : State) (g : Bool) (r : List Sample) {imA limit fa fb : Rat}
    (himA : imA = totalMilliamps s.cfg r) (hlimit : limit = s.store.climit.raw)
    (hfa : fa = filterStep s.cfg (avgA r) s.filtA) (hfb : fb = filterStep s.cfg (avgB r) s.filtB) :
    s.monitorCycle g r =
      { s with
        ring := []
        filtA := fa
        filtB := fb
        estop := if limit < imA then true else s.estop
        settling := if s.settling = true ∧ imA < limit then true else false
        store :=
          { s.store with
            power :=
              if g = true then ⟨totalPower s.cfg (avgA r) (avgB r), totalPower s.cfg fa fb⟩ else s.store.power
            climit := if s.settling = true ∧ imA < limit then s.store.climit else ⟨imA, Config.freeCell s.draws⟩ }
        draws := if s.settling = true ∧ imA < limit then s.draws else s.draws + 1
        evq := if g = true ∧ s.evq.length < s.cfg.evqCap then s.evq ++ [.power] else s.evq
        res :=
          ⟨s.res.result,
            s.res.raised ++
              ((if limit < imA then [.overcurrent imA] else []) ++
                if g = true then [] else [.lockTimeout .power])⟩ } := by
  subst himA hlimit hfa hfb
  simp only [monitorCycle, publishPower_eq, clobberLimit_eq, compareAndTrip_eq, filterAll, exceedsLimit_iff,
    ignoredWhileSettling_iff]
  congr 1
  case e_estop => by_cases trips : s.store.climit.raw < totalMilliamps s.cfg r <;> simp [exceedsLimit, trips]
  case e_settling => rw [Bool.eq_iff_iff, ignoredWhileSettling_iff]; simp
  case e_evq =>
    obtain ⟨room, push⟩ | ⟨full, push⟩ := evPush_cases s.cfg.evqCap s.evq .power <;> rw [push]
    · simp [room]
    · simp [full.not_gt]
  case e_res =>
    by_cases trips : s.store.climit.raw < totalMilliamps s.cfg r <;> cases g <;> simp [trips]

/-- The average of one channel over the pairs drained (R168). -/
theorem avg_eq_div (r : List Sample) :
    avgA r = (r.map Sample.a).sum / r.length ∧ avgB r = (r.map Sample.b).sum / r.length := by
  simp [avgA, avgB, average]

/-- What MONC raises: the overcurrent first, then the timeout of its publish (R174, R231). -/
theorem exec_monc_raised {g : Bool} {s t : State} (h : exec (.monc g) s = .next t) (hr : s.ring ≠ []) :
    t.res.raised =
      (if s.store.climit.raw < totalMilliamps s.cfg s.ring then [.overcurrent (totalMilliamps s.cfg s.ring)] else []) ++
        (if g = true then [] else [.lockTimeout .power]) := by
  rw [exec_monc_of_ring_ne_nil g hr, State.monitorCycle_eq _ g _ rfl rfl rfl rfl] at h
  cases h
  rfl

/-- MONC reports an overcurrent exactly when the current is above the limit it finds (R174, R214). -/
theorem exec_monc_overcurrent_iff {g : Bool} {s t : State} (h : exec (.monc g) s = .next t) (hr : s.ring ≠ []) :
    (∃ x : Rat, Exn.overcurrent x ∈ t.res.raised) ↔ s.store.climit.raw < totalMilliamps s.cfg s.ring := by
  rw [exec_monc_raised h hr]
  by_cases exceeds : s.store.climit.raw < totalMilliamps s.cfg s.ring <;> cases g <;> simp [exceeds]

/-- Out of the settling phase the cycle leaves its own current as the limit (R175, R177). -/
theorem exec_monc_limit {g : Bool} {s t : State} (h : exec (.monc g) s = .next t) (hr : s.ring ≠ [])
    (hs : s.settling = false) : t.store.climit.raw = totalMilliamps s.cfg s.ring := by
  rw [exec_monc_of_ring_ne_nil g hr, State.monitorCycle_eq _ g _ rfl rfl rfl rfl] at h
  cases h
  simp [hs]

end Sys2Proof.Machine

namespace Sys2Proof.Proofs

open Sys2Proof.Machine Sys2Proof.Claims

/-- Settles O34, by induction on the pushes (`runs_adcps`). -/
theorem pushesKeepTheNewestSamples : Obligations.PushesKeepTheNewestSamples :=
  fun xs _ hc hr => runs_adcps xs hc hr

/-- Settles O35: the empty ring ends the cycle before it begins. -/
theorem moncWithNoSamplesChangesNothing : Obligations.MoncWithNoSamplesChangesNothing :=
  fun g _ hr => exec_monc_of_ring_nil g hr

/-- Settles O36: `State.monitorCycle_eq`, with the averages, the filters and the current written out. -/
theorem moncCycle : Obligations.MoncCycle := by
  intro g s a b fa fb imA limit hr ha hb hfa hfb himA hlimit
  obtain ⟨averageA, averageB⟩ := avg_eq_div s.ring
  rw [← averageA] at ha
  rw [← averageB] at hb
  subst ha hb
  rw [exec_monc_of_ring_ne_nil g hr, State.monitorCycle_eq s.openRes g s.ring himA hlimit hfa hfb]
  rfl

/-- Settles O37: the comparison comes first and looks at the current alone; MONC is no writer of driver or ramp. -/
theorem overcurrentAlwaysTrips : Obligations.OvercurrentAlwaysTrips := by
  intro g s hr exceeds
  obtain ⟨t, next⟩ := exec_next (.monc g) s
  have raised := exec_monc_raised next hr
  rw [if_pos exceeds] at raised
  refine ⟨t, next, ?estop, by rw [raised]; rfl, ?frame⟩
  case estop =>
    rw [exec_monc_of_ring_ne_nil g hr] at next
    cases next
    rw [State.monitorCycle_estop, s.openRes_cfg, s.openRes_store, exceedsLimit_iff.mpr exceeds, Bool.or_true]
  case frame =>
    rw [exec_frame next]
    exact ⟨rfl, rfl, rfl, rfl, rfl, rfl⟩

/-- Settles O38: the first cycle leaves its current as the limit, the pushes leave the limit, and the second cycle
compares with it. -/
theorem limitIsThePreviousCyclesCurrent : Obligations.LimitIsThePreviousCyclesCurrent := by
  intro g g' s t xs hr hs next hx
  have limit := exec_monc_limit next hr hs
  obtain ⟨cfg, -⟩ := exec_keeps_cfg_env next
  obtain ⟨u, run, pairs, store, cfg'⟩ := runs_adcps_nonempty hx t
  obtain ⟨v, next'⟩ := exec_next (.monc g') u
  refine ⟨exec_monc_settling next hs, limit, u, v, run, next', ?_⟩
  rw [exec_monc_overcurrent_iff next' pairs, store, limit, cfg', cfg]

end Sys2Proof.Proofs
end

section
/-! The exceptions of an operation (60_exceptions.md R211 to R218, R231), and that only RTICK looks at `estop`
(45_estop_store_events.md R192). -/

namespace Sys2Proof.Machine

open Sys2Proof.Claims

/-! ### What each operation raises -/

/-- PIDS is given an invalid input: the cause of `PID_INVALID_INPUT` as a test (R213). -/
def State.pidRefuses (s : State) (m : Rat) (e : Int) : Bool :=
  decide (s.soft ≠ 0 ∧ ¬(m = 0 ∧ e = -1) ∧ (m < 0 ∨ e ≤ 0))

theorem State.pidRefuses_iff {s : State} {m : Rat} {e : Int} :
    s.pidRefuses m e = true ↔ pidInputInvalid s m e := decide_eq_true_iff

/-- PIDS sets its flag and raises exactly for an invalid input (R133, R213). -/
theorem State.runPid_refuses (s : State) (m : Rat) (e : Int) :
    (s.runPid m e).2.pidErr = s.pidRefuses m e ∧
      (s.runPid m e).2.res.raised = s.res.raised ++ if s.pidRefuses m e then [.pidInvalidInput] else [] := by
  obtain ⟨bad, flag, raised⟩ | ⟨good, flag, raised⟩ := s.runPid_reports m e
  · have refuses : s.pidRefuses m e = true := decide_eq_true bad
    rw [flag, raised, refuses]
    exact ⟨rfl, rfl⟩
  · have accepts : s.pidRefuses m e = false := decide_eq_false good
    rw [flag, raised, accepts]
    exact ⟨rfl, (List.append_nil _).symm⟩

/-- The exceptions an operation raises in `s`, in their order (R212 to R217, R231). -/
def State.raises (s : State) : Instr → List Exn
  | .rpms g a => if a = 0 then [.rpmZeroElapsed] else if g then [] else [.lockTimeout .rpm]
  | .pids m e => if s.pidRefuses m e then [.pidInvalidInput] else []
  | .dapp g => if s.pidErr = false ∧ g = false then [.lockTimeout .pwm] else []
  | .spdc g a e =>
    if a = 0 then [.rpmZeroElapsed]
    else
      (if g then [] else [.lockTimeout .rpm]) ++
        if s.pidRefuses (rpmOf s.cfg s.tcount a) e then [.pidInvalidInput]
        else if g then [] else [.lockTimeout .pwm]
  | .monc g =>
    if s.ring = [] then []
    else
      (if s.store.climit.raw < totalMilliamps s.cfg s.ring then [.overcurrent (totalMilliamps s.cfg s.ring)] else []) ++
        if g then [] else [.lockTimeout .power]
  | .sget g k | .sset g k _ _ | .sfld g _ k _ => if g then [] else [.lockTimeout k]
  | .hedge _ _ | .cwake | .cpoll _ | .rtick | .adcp _ _ | .tset _ | .eset | .eack | .evpop | .reset => []

/-- Commutating raises nothing (R102). -/
@[simp] theorem State.commutate_res (s : State) (h : HallCode) : (s.commutate h).res = s.res := by
  rw [State.commutate_eq]

/-- A move of the ramp raises nothing (R152). -/
@[simp] theorem State.rampMove_res (s : State) (step : Int) : (s.rampMove step).res = s.res := by
  rw [s.rampMove_frame step]

/-- What RPMS with elapsed ticks leaves for the other parts of SPDC: the timeout of its publish on the result port, the
setpoint as it was (R122). -/
theorem State.sampleRpm_leaves {s t : State} {g : Bool} {a : Nat} {q : Rat} (ha : a ≠ 0)
    (hs : s.sampleRpm g a = (some q, t)) :
    q = rpmOf s.cfg s.tcount a ∧ t.soft = s.soft ∧
      t.res.raised = s.res.raised ++ if g then [] else [.lockTimeout .rpm] := by
  rw [s.sampleRpm_pos g ha] at hs
  cases hs
  refine ⟨rfl, ?soft, State.publishAny_raised _ g _ _⟩
  case soft => rw [State.publishAny_eq]

/-- SPDC raises what its three parts raise (R140, R231). -/
theorem exec_spdc_raised {g : Bool} {a : Nat} {e : Int} {s t : State} (h : exec (.spdc g a e) s = .next t) :
    t.res.raised = s.raises (.spdc g a e) := by
  by_cases ha : a = 0
  case pos => subst ha; cases h; rfl
  case neg =>
    obtain ⟨u, sampled⟩ : ∃ u, s.openRes.sampleRpm g a = (some (rpmOf s.cfg s.tcount a), u) :=
      ⟨_, s.openRes.sampleRpm_pos g ha⟩
    obtain ⟨-, soft, rpmPart⟩ := State.sampleRpm_leaves ha sampled
    rw [exec_spdc_of_sampleRpm sampled] at h
    cases h
    obtain ⟨flag, pidPart⟩ := u.runPid_refuses (rpmOf s.cfg s.tcount a) e
    have sameTest : u.pidRefuses (rpmOf s.cfg s.tcount a) e = s.pidRefuses (rpmOf s.cfg s.tcount a) e := by
      rw [State.pidRefuses, soft]; rfl
    rw [State.answer_res, State.applyDuty_raised, flag, pidPart, rpmPart, sameTest]
    simp only [State.raises, if_neg ha]
    cases s.pidRefuses (rpmOf s.cfg s.tcount a) e <;> cases g <;> rfl

/-- Every operation hands back the exceptions that `State.raises` lists. -/
theorem exec_raised {i : Instr} {s t : State} (h : exec i s = .next t) : t.res.raised = s.raises i := by
  cases i with
  | rpms g a =>
    by_cases ha : a = 0
    case pos => subst ha; cases h; rfl
    case neg =>
      rw [exec_rpms_pos g ha] at h
      cases h
      simp only [State.raises, if_neg ha]
      exact State.publishAny_raised _ g _ _
  | pids m e =>
    cases h
    exact (s.openRes.runPid_refuses m e).2
  | dapp g => cases h; exact State.applyDuty_raised _ g
  | spdc g a e => exact exec_spdc_raised h
  | monc g =>
    by_cases hr : s.ring = []
    case pos =>
      rw [exec_monc_of_ring_nil g hr] at h
      cases h
      simp only [State.raises, if_pos hr]
      rfl
    case neg => simp only [State.raises, if_neg hr, exec_monc_raised h hr]
  | sget g | sset g | sfld g => cases g <;> cases h <;> rfl
  | cwake =>
    cases hp : s.hallPending
    case true => rw [exec_cwake_of_permit hp] at h; cases h; rw [State.commutate_res]; rfl
    case false => rw [exec_cwake_of_no_permit hp] at h; cases h; rfl
  | cpoll p =>
    cases hp : s.hallPending
    case true => rw [exec_cpoll_of_permit p hp] at h; cases h; rfl
    case false => rw [exec_cpoll_of_no_permit p hp] at h; cases h; rw [State.commutate_res]; rfl
  | rtick =>
    obtain runs | ⟨off, notPositive⟩ := tick_runs_or_stops s
    · rw [exec_rtick_eq_move runs] at h; cases h; rw [State.rampMove_res]; rfl
    · rw [exec_rtick_of_stopped off notPositive] at h; cases h; rfl
  | hedge | adcp | tset | eset | eack | evpop | reset => cases h; rfl

/-- An exception is on the list exactly when the operation has cause to raise it (R211 to R218). -/
theorem State.mem_raises_iff (s : State) (i : Instr) (x : Exn) : x ∈ s.raises i ↔ hasCause i s x := by
  cases i with
  | rpms g a => by_cases ha : a = 0 <;> cases g <;> simp [State.raises, hasCause, ha]
  | pids m e => cases hp : s.pidRefuses m e <;> simp [State.raises, hasCause, ← State.pidRefuses_iff, hp]
  | dapp g => cases g <;> cases hi : s.pidErr <;> simp [State.raises, hasCause, hi]
  | spdc g a e =>
    by_cases ha : a = 0
    case pos => simp [State.raises, hasCause, ha]
    case neg =>
      cases hp : s.pidRefuses (rpmOf s.cfg s.tcount a) e <;> cases g <;>
        simp [State.raises, hasCause, ha, ← State.pidRefuses_iff, hp]
  | monc g =>
    by_cases hr : s.ring = []
    case pos => simp [State.raises, hasCause, hr]
    case neg =>
      by_cases trips : s.store.climit.raw < totalMilliamps s.cfg s.ring <;> cases g <;>
        simp [State.raises, hasCause, hr, trips]
  | sget g | sset g | sfld g => cases g <;> simp [State.raises, hasCause]
  | hedge | cwake | cpoll | rtick | adcp | tset | eset | eack | evpop | reset => simp [State.raises, hasCause]

/-- At most one exception at once in an operation of one part (R231). -/
theorem State.raises_length_le_one (s : State) {i : Instr} (hm : i.op ≠ .MONC) (hs : i.op ≠ .SPDC) :
    (s.raises i).length ≤ 1 := by
  cases i with
  | monc => exact absurd rfl hm
  | spdc => exact absurd rfl hs
  | rpms | pids | dapp | sget | sset | sfld => simp only [State.raises]; split_ifs <;> simp
  | hedge | cwake | cpoll | rtick | adcp | tset | eset | eack | evpop | reset => exact Nat.zero_le _

/-- At most two exceptions at once in any operation (R231). -/
theorem State.raises_length_le_two (s : State) (i : Instr) : (s.raises i).length ≤ 2 := by
  cases i with
  | spdc | monc => simp only [State.raises]; split_ifs <;> simp
  | _ => exact Nat.le_succ_of_le (s.raises_length_le_one nofun nofun)

/-! ### The E-Stop flag at another value -/

/-- The state with `estop` at another value. -/
def State.withEstop (s : State) (b : Bool) : State := { s with estop := b }

namespace State

/-- The commutation looks at the motor flag, the engine and the code (R102). -/
theorem commutate_withEstop (s : State) (b : Bool) (h : HallCode) :
    (s.withEstop b).commutate h = (s.commutate h).withEstop b := by
  rw [commutate_eq, commutate_eq]; rfl

/-- The sample looks at the counter and the parameters (R122). -/
theorem sampleRpm_withEstop (s : State) (b g : Bool) (a : Nat) :
    (s.withEstop b).sampleRpm g a = ((s.sampleRpm g a).1, (s.sampleRpm g a).2.withEstop b) := by
  by_cases ha : a = 0
  · subst ha; rfl
  · rw [sampleRpm_pos _ g ha, sampleRpm_pos _ g ha, publishAny_eq, publishAny_eq]; rfl

/-- The controller looks at its own registers and the setpoint (R130). -/
theorem runPid_withEstop (s : State) (b : Bool) (m : Rat) (e : Int) :
    (s.withEstop b).runPid m e = ((s.runPid m e).1, (s.runPid m e).2.withEstop b) := by
  have soft : (s.withEstop b).soft = s.soft := rfl
  have cfg : (s.withEstop b).cfg = s.cfg := rfl
  unfold runPid
  rw [soft, cfg]
  split_ifs <;> rfl

/-- DAPP looks at the controller's output and error flag (R139). -/
theorem applyDuty_withEstop (s : State) (b g : Bool) :
    (s.withEstop b).applyDuty g = (s.applyDuty g).withEstop b := by
  cases hi : s.pidErr
  · rw [applyDuty_apply s g hi, applyDuty_apply (s.withEstop b) g hi, publishAny_eq, publishAny_eq]; rfl
  · rw [applyDuty_hold s g hi, applyDuty_hold (s.withEstop b) g hi]

/-- The monitor's cycle can set the flag, and looks at it for nothing else (R174). -/
theorem monitorCycle_withEstop (s : State) (b g : Bool) (r : List Sample) :
    (s.withEstop b).monitorCycle g r =
      (s.monitorCycle g r).withEstop ((s.withEstop b).monitorCycle g r).estop := by
  rw [monitorCycle_eq s g r rfl rfl rfl rfl, monitorCycle_eq (s.withEstop b) g r rfl rfl rfl rfl]
  rfl

end State

/-- What an operation does from `s` and from `s` with `estop` at another value is the same but for the flag (R192). -/
def SameButEstop (i : Instr) (s : State) (b : Bool) : Prop :=
  ∃ t u : State, exec i s = .next t ∧ exec i (s.withEstop b) = .next u ∧ u = t.withEstop u.estop

/-- An operation that leaves the other value where it is. -/
theorem SameButEstop.of_kept {i : Instr} {s t : State} {b : Bool} (h : exec i s = .next t)
    (h' : exec i (s.withEstop b) = .next (t.withEstop b)) : SameButEstop i s b :=
  ⟨t, _, h, h', rfl⟩

theorem sameButEstop_cwake (s : State) (b : Bool) : SameButEstop .cwake s b := by
  cases hp : s.hallPending
  case true =>
    refine .of_kept (exec_cwake_of_permit hp) ?_
    rw [exec_cwake_of_permit (s := s.withEstop b) hp, ← State.commutate_withEstop]
    rfl
  case false => exact .of_kept (exec_cwake_of_no_permit hp) (exec_cwake_of_no_permit (s := s.withEstop b) hp)

theorem sameButEstop_cpoll (p : HallCode) (s : State) (b : Bool) : SameButEstop (.cpoll p) s b := by
  cases hp : s.hallPending
  case true => exact .of_kept (exec_cpoll_of_permit p hp) (exec_cpoll_of_permit (s := s.withEstop b) p hp)
  case false =>
    refine .of_kept (exec_cpoll_of_no_permit p hp) ?_
    rw [exec_cpoll_of_no_permit (s := s.withEstop b) p hp, ← State.commutate_withEstop]
    rfl

theorem sameButEstop_rpms (g : Bool) (a : Nat) (s : State) (b : Bool) : SameButEstop (.rpms g a) s b := by
  have sampled' := s.openRes.sampleRpm_withEstop b g a
  rcases sampled : s.openRes.sampleRpm g a with ⟨_ | q, u⟩ <;> rw [sampled] at sampled'
  case none => exact .of_kept (exec_rpms_of_skip sampled) (exec_rpms_of_skip (s := s.withEstop b) sampled')
  case some =>
    exact .of_kept (exec_rpms_of_sampleRpm sampled) (exec_rpms_of_sampleRpm (s := s.withEstop b) sampled')

theorem sameButEstop_spdc (g : Bool) (a : Nat) (e : Int) (s : State) (b : Bool) :
    SameButEstop (.spdc g a e) s b := by
  have sampled' := s.openRes.sampleRpm_withEstop b g a
  rcases sampled : s.openRes.sampleRpm g a with ⟨_ | q, u⟩ <;> rw [sampled] at sampled'
  case none => exact .of_kept (exec_spdc_of_skip sampled) (exec_spdc_of_skip (s := s.withEstop b) sampled')
  case some =>
    refine .of_kept (exec_spdc_of_sampleRpm sampled) ?_
    rw [exec_spdc_of_sampleRpm (s := s.withEstop b) sampled', State.runPid_withEstop, State.applyDuty_withEstop]
    rfl

theorem sameButEstop_pids (m : Rat) (e : Int) (s : State) (b : Bool) : SameButEstop (.pids m e) s b :=
  .of_kept (exec_pids_of_runPid rfl)
    (exec_pids_of_runPid (s := s.withEstop b) (s.openRes.runPid_withEstop b m e))

theorem sameButEstop_dapp (g : Bool) (s : State) (b : Bool) : SameButEstop (.dapp g) s b :=
  .of_kept rfl (congrArg Host.Outcome.next (s.openRes.applyDuty_withEstop b g))

theorem sameButEstop_monc (g : Bool) (s : State) (b : Bool) : SameButEstop (.monc g) s b := by
  by_cases hr : s.ring = []
  case pos => exact .of_kept (exec_monc_of_ring_nil g hr) (exec_monc_of_ring_nil (s := s.withEstop b) g hr)
  case neg =>
    exact ⟨_, _, exec_monc_of_ring_ne_nil g hr, exec_monc_of_ring_ne_nil (s := s.withEstop b) g hr,
      s.openRes.monitorCycle_withEstop b g s.ring⟩

/-- RTICK is the only operation that looks at `estop` (R192). -/
theorem sameButEstop {i : Instr} (hi : i.op ≠ .RTICK) (s : State) (b : Bool) : SameButEstop i s b := by
  cases i with
  | cwake => exact sameButEstop_cwake s b
  | cpoll p => exact sameButEstop_cpoll p s b
  | rpms g a => exact sameButEstop_rpms g a s b
  | pids m e => exact sameButEstop_pids m e s b
  | dapp g => exact sameButEstop_dapp g s b
  | spdc g a e => exact sameButEstop_spdc g a e s b
  | monc g => exact sameButEstop_monc g s b
  | rtick => exact absurd rfl hi
  | sget g | sset g | sfld g => cases g <;> exact .of_kept rfl rfl
  | hedge | adcp | tset | eset | eack | evpop | reset => exact ⟨_, _, rfl, rfl, rfl⟩

end Sys2Proof.Machine

namespace Sys2Proof.Proofs

open Sys2Proof.Machine

/-- Settles O51: the exceptions on the result port are those `State.raises` lists, which are those with a cause. -/
theorem operationsRaiseOnlyTheirCodes : Obligations.OperationsRaiseOnlyTheirCodes := by
  intro i s t h x
  rw [exec_raised h, State.mem_raises_iff]

/-- Settles O52, by the length of the list. -/
theorem onlyMoncAndSpdcRaiseTwo : Obligations.OnlyMoncAndSpdcRaiseTwo := by
  intro i s t h
  rw [exec_raised h]
  refine ⟨s.raises_length_le_two i, fun two => ?_⟩
  by_contra other
  obtain ⟨notMonc, notSpdc⟩ := not_or.mp other
  have one := s.raises_length_le_one notMonc notSpdc
  omega

/-- Settles O41: the operation does the same from both states, but for the flag. -/
theorem onlyRtickLooksAtEstop : Obligations.OnlyRtickLooksAtEstop :=
  fun _ s b hi => sameButEstop hi s b

/-- Settles O50: `State.raise` appends to the list on the result port. -/
theorem raisingChangesNoState : Obligations.RaisingChangesNoState :=
  fun _ _ => rfl

end Sys2Proof.Proofs
end
